-- ==== Sys2Proof/Word.lean ====
section
/-! DEFINITION. The word types of the OR1K model: a byte of memory, an instruction word, a
register number, and the plainest operations on them (R7, R8, R20, R100). -/

namespace Sys2Proof

/-- One addressable byte (R70). -/
abbrev Byte := BitVec 8

/-- One instruction word: every instruction is 4 bytes (R100). -/
abbrev InsnWord := BitVec 32

/-- The 5-bit number of a general register (R10, R20, D45). -/
abbrev RegNum := BitVec 5

/-- The widest form of a register, an address or a loaded datum; at `XLEN = 32` only the low
half is used and the high half is zero. -/
abbrev Word64 := BitVec 64

end Sys2Proof
end

