-- ==== Sys2Proof/Syntax.lean ====
section
/-! DEFINITION. The instructions of OR1K: one constructor for each row of the opcode table,
in the order of the table, each with its decoded operands (R101 to R104). -/

namespace Sys2Proof

/-- An instruction with its operands. The operands are named as the spec names the fields: `rD`,
`rA`, `rB` are register numbers, `imm` the 16-bit `I` or `K`, `l` a shift amount, `n` a branch
offset in words; `custom`, `hi`, `mid`, `lo` are the bits a custom encoding leaves free. -/
inductive Instr where
  /-- `l.add rD,rA,rB` (R136). -/
  | lAdd (rD rA rB : RegNum)
  /-- `l.addc rD,rA,rB` (R137). -/
  | lAddc (rD rA rB : RegNum)
  /-- `l.addi rD,rA,I` (R138). -/
  | lAddi (rD rA : RegNum) (imm : BitVec 16)
  /-- `l.addic rD,rA,I` (R139). -/
  | lAddic (rD rA : RegNum) (imm : BitVec 16)
  /-- `l.and rD,rA,rB` (R140). -/
  | lAnd (rD rA rB : RegNum)
  /-- `l.andi rD,rA,K` (R141). -/
  | lAndi (rD rA : RegNum) (imm : BitVec 16)
  /-- `l.bf N` (R202). -/
  | lBf (n : BitVec 26)
  /-- `l.bnf N` (R203). -/
  | lBnf (n : BitVec 26)
  /-- `l.cmov rD,rA,rB` (R142). -/
  | lCmov (rD rA rB : RegNum)
  /-- `l.csync` (R271). -/
  | lCsync
  /-- `l.cust1` (R272). -/
  | lCust1 (custom : BitVec 26)
  /-- `l.cust2` (R273). -/
  | lCust2 (custom : BitVec 26)
  /-- `l.cust3` (R274). -/
  | lCust3 (custom : BitVec 26)
  /-- `l.cust4` (R275). -/
  | lCust4 (custom : BitVec 26)
  /-- `l.cust5 rD,rA,rB,L,K` (R276). -/
  | lCust5 (rD rA rB : RegNum) (l : BitVec 6) (k : BitVec 5)
  /-- `l.cust6` (R277). -/
  | lCust6 (custom : BitVec 26)
  /-- `l.cust7` (R278). -/
  | lCust7 (custom : BitVec 26)
  /-- `l.cust8` (R279). -/
  | lCust8 (custom : BitVec 26)
  /-- `l.div rD,rA,rB` (R143). -/
  | lDiv (rD rA rB : RegNum)
  /-- `l.divu rD,rA,rB` (R144). -/
  | lDivu (rD rA rB : RegNum)
  /-- `l.extbs rD,rA` (R145). -/
  | lExtbs (rD rA : RegNum)
  /-- `l.extbz rD,rA` (R146). -/
  | lExtbz (rD rA : RegNum)
  /-- `l.exths rD,rA` (R147). -/
  | lExths (rD rA : RegNum)
  /-- `l.exthz rD,rA` (R148). -/
  | lExthz (rD rA : RegNum)
  /-- `l.extws rD,rA` (R149). -/
  | lExtws (rD rA : RegNum)
  /-- `l.extwz rD,rA` (R150). -/
  | lExtwz (rD rA : RegNum)
  /-- `l.ff1 rD,rA,rB` (R151). -/
  | lFf1 (rD rA rB : RegNum)
  /-- `l.fl1 rD,rA,rB` (R152). -/
  | lFl1 (rD rA rB : RegNum)
  /-- `l.j N` (R204). -/
  | lJ (n : BitVec 26)
  /-- `l.jal N` (R205). -/
  | lJal (n : BitVec 26)
  /-- `l.jalr rB` (R206). -/
  | lJalr (rB : RegNum)
  /-- `l.jr rB` (R207). -/
  | lJr (rB : RegNum)
  /-- `l.lbs rD,I(rA)` (R221). -/
  | lLbs (rD rA : RegNum) (imm : BitVec 16)
  /-- `l.lbz rD,I(rA)` (R222). -/
  | lLbz (rD rA : RegNum) (imm : BitVec 16)
  /-- `l.ld rD,I(rA)` (R223). -/
  | lLd (rD rA : RegNum) (imm : BitVec 16)
  /-- `l.lhs rD,I(rA)` (R224). -/
  | lLhs (rD rA : RegNum) (imm : BitVec 16)
  /-- `l.lhz rD,I(rA)` (R225). -/
  | lLhz (rD rA : RegNum) (imm : BitVec 16)
  /-- `l.lwa rD,I(rA)` (R226). -/
  | lLwa (rD rA : RegNum) (imm : BitVec 16)
  /-- `l.lws rD,I(rA)` (R227). -/
  | lLws (rD rA : RegNum) (imm : BitVec 16)
  /-- `l.lwz rD,I(rA)` (R228). -/
  | lLwz (rD rA : RegNum) (imm : BitVec 16)
  /-- `l.mac rA,rB` (R252). -/
  | lMac (rA rB : RegNum)
  /-- `l.maci rA,I` (R253). -/
  | lMaci (rA : RegNum) (imm : BitVec 16)
  /-- `l.macrc rD` (R254). -/
  | lMacrc (rD : RegNum)
  /-- `l.macu rA,rB` (R255). -/
  | lMacu (rA rB : RegNum)
  /-- `l.mfspr rD,rA,K` (R280). -/
  | lMfspr (rD rA : RegNum) (imm : BitVec 16)
  /-- `l.movhi rD,K` (R153). -/
  | lMovhi (rD : RegNum) (imm : BitVec 16)
  /-- `l.msb rA,rB` (R256). -/
  | lMsb (rA rB : RegNum)
  /-- `l.msbu rA,rB` (R257). -/
  | lMsbu (rA rB : RegNum)
  /-- `l.msync` (R281). -/
  | lMsync
  /-- `l.mtspr rA,rB,K` (R282). -/
  | lMtspr (rA rB : RegNum) (imm : BitVec 16)
  /-- `l.mul rD,rA,rB` (R154). -/
  | lMul (rD rA rB : RegNum)
  /-- `l.muld rA,rB` (R258). -/
  | lMuld (rA rB : RegNum)
  /-- `l.muldu rA,rB` (R259). -/
  | lMuldu (rA rB : RegNum)
  /-- `l.muli rD,rA,I` (R155). -/
  | lMuli (rD rA : RegNum) (imm : BitVec 16)
  /-- `l.mulu rD,rA,rB` (R156). -/
  | lMulu (rD rA rB : RegNum)
  /-- `l.nop K` (R283). -/
  | lNop (imm : BitVec 16)
  /-- `l.or rD,rA,rB` (R157). -/
  | lOr (rD rA rB : RegNum)
  /-- `l.ori rD,rA,K` (R158). -/
  | lOri (rD rA : RegNum) (imm : BitVec 16)
  /-- `l.psync` (R284). -/
  | lPsync
  /-- `l.rfe` (R285). -/
  | lRfe
  /-- `l.ror rD,rA,rB` (R159). -/
  | lRor (rD rA rB : RegNum)
  /-- `l.rori rD,rA,L` (R160). -/
  | lRori (rD rA : RegNum) (l : BitVec 6)
  /-- `l.sb I(rA),rB` (R229). -/
  | lSb (rA rB : RegNum) (imm : BitVec 16)
  /-- `l.sd I(rA),rB` (R230). -/
  | lSd (rA rB : RegNum) (imm : BitVec 16)
  /-- `l.sfeq rA,rB` (R180). -/
  | lSfeq (rA rB : RegNum)
  /-- `l.sfeqi rA,I` (R181). -/
  | lSfeqi (rA : RegNum) (imm : BitVec 16)
  /-- `l.sfges rA,rB` (R182). -/
  | lSfges (rA rB : RegNum)
  /-- `l.sfgesi rA,I` (R183). -/
  | lSfgesi (rA : RegNum) (imm : BitVec 16)
  /-- `l.sfgeu rA,rB` (R184). -/
  | lSfgeu (rA rB : RegNum)
  /-- `l.sfgeui rA,I` (R185). -/
  | lSfgeui (rA : RegNum) (imm : BitVec 16)
  /-- `l.sfgts rA,rB` (R186). -/
  | lSfgts (rA rB : RegNum)
  /-- `l.sfgtsi rA,I` (R187). -/
  | lSfgtsi (rA : RegNum) (imm : BitVec 16)
  /-- `l.sfgtu rA,rB` (R188). -/
  | lSfgtu (rA rB : RegNum)
  /-- `l.sfgtui rA,I` (R189). -/
  | lSfgtui (rA : RegNum) (imm : BitVec 16)
  /-- `l.sfles rA,rB` (R190). -/
  | lSfles (rA rB : RegNum)
  /-- `l.sflesi rA,I` (R191). -/
  | lSflesi (rA : RegNum) (imm : BitVec 16)
  /-- `l.sfleu rA,rB` (R192). -/
  | lSfleu (rA rB : RegNum)
  /-- `l.sfleui rA,I` (R193). -/
  | lSfleui (rA : RegNum) (imm : BitVec 16)
  /-- `l.sflts rA,rB` (R194). -/
  | lSflts (rA rB : RegNum)
  /-- `l.sfltsi rA,I` (R195). -/
  | lSfltsi (rA : RegNum) (imm : BitVec 16)
  /-- `l.sfltu rA,rB` (R196). -/
  | lSfltu (rA rB : RegNum)
  /-- `l.sfltui rA,I` (R197). -/
  | lSfltui (rA : RegNum) (imm : BitVec 16)
  /-- `l.sfne rA,rB` (R198). -/
  | lSfne (rA rB : RegNum)
  /-- `l.sfnei rA,I` (R199). -/
  | lSfnei (rA : RegNum) (imm : BitVec 16)
  /-- `l.sh I(rA),rB` (R231). -/
  | lSh (rA rB : RegNum) (imm : BitVec 16)
  /-- `l.sll rD,rA,rB` (R161). -/
  | lSll (rD rA rB : RegNum)
  /-- `l.slli rD,rA,L` (R162). -/
  | lSlli (rD rA : RegNum) (l : BitVec 6)
  /-- `l.sra rD,rA,rB` (R163). -/
  | lSra (rD rA rB : RegNum)
  /-- `l.srai rD,rA,L` (R164). -/
  | lSrai (rD rA : RegNum) (l : BitVec 6)
  /-- `l.srl rD,rA,rB` (R165). -/
  | lSrl (rD rA rB : RegNum)
  /-- `l.srli rD,rA,L` (R166). -/
  | lSrli (rD rA : RegNum) (l : BitVec 6)
  /-- `l.sub rD,rA,rB` (R167). -/
  | lSub (rD rA rB : RegNum)
  /-- `l.sw I(rA),rB` (R232). -/
  | lSw (rA rB : RegNum) (imm : BitVec 16)
  /-- `l.swa I(rA),rB` (R233). -/
  | lSwa (rA rB : RegNum) (imm : BitVec 16)
  /-- `l.sys K` (R286). -/
  | lSys (imm : BitVec 16)
  /-- `l.trap K` (R287). -/
  | lTrap (imm : BitVec 16)
  /-- `l.xor rD,rA,rB` (R168). -/
  | lXor (rD rA rB : RegNum)
  /-- `l.xori rD,rA,I` (R169). -/
  | lXori (rD rA : RegNum) (imm : BitVec 16)
  /-- `lf.add.d rD,rA,rB` (R303). -/
  | lfAddD (rD rA rB : RegNum)
  /-- `lf.add.s rD,rA,rB` (R304). -/
  | lfAddS (rD rA rB : RegNum)
  /-- `lf.cust1.d rA,rB` (R305), and its free bits 25:21, 10:8 and 3:0. -/
  | lfCust1D (rA rB : RegNum) (custom : BitVec 12)
  /-- `lf.cust1.s rA,rB` (R306), and its free bits 25:21, 10:8 and 3:0. -/
  | lfCust1S (rA rB : RegNum) (custom : BitVec 12)
  /-- `lf.div.d rD,rA,rB` (R307). -/
  | lfDivD (rD rA rB : RegNum)
  /-- `lf.div.s rD,rA,rB` (R308). -/
  | lfDivS (rD rA rB : RegNum)
  /-- `lf.ftoi.d rD,rA` (R309). -/
  | lfFtoiD (rD rA : RegNum)
  /-- `lf.ftoi.s rD,rA` (R310). -/
  | lfFtoiS (rD rA : RegNum)
  /-- `lf.itof.d rD,rA` (R311). -/
  | lfItofD (rD rA : RegNum)
  /-- `lf.itof.s rD,rA` (R312). -/
  | lfItofS (rD rA : RegNum)
  /-- `lf.madd.d rD,rA,rB` (R313). -/
  | lfMaddD (rD rA rB : RegNum)
  /-- `lf.madd.s rD,rA,rB` (R314). -/
  | lfMaddS (rD rA rB : RegNum)
  /-- `lf.mul.d rD,rA,rB` (R315). -/
  | lfMulD (rD rA rB : RegNum)
  /-- `lf.mul.s rD,rA,rB` (R316). -/
  | lfMulS (rD rA rB : RegNum)
  /-- `lf.rem.d rD,rA,rB` (R317). -/
  | lfRemD (rD rA rB : RegNum)
  /-- `lf.rem.s rD,rA,rB` (R318). -/
  | lfRemS (rD rA rB : RegNum)
  /-- `lf.sfeq.d rA,rB` (R319). -/
  | lfSfeqD (rA rB : RegNum)
  /-- `lf.sfeq.s rA,rB` (R320). -/
  | lfSfeqS (rA rB : RegNum)
  /-- `lf.sfge.d rA,rB` (R321). -/
  | lfSfgeD (rA rB : RegNum)
  /-- `lf.sfge.s rA,rB` (R322). -/
  | lfSfgeS (rA rB : RegNum)
  /-- `lf.sfgt.d rA,rB` (R323). -/
  | lfSfgtD (rA rB : RegNum)
  /-- `lf.sfgt.s rA,rB` (R324). -/
  | lfSfgtS (rA rB : RegNum)
  /-- `lf.sfle.d rA,rB` (R325). -/
  | lfSfleD (rA rB : RegNum)
  /-- `lf.sfle.s rA,rB` (R326). -/
  | lfSfleS (rA rB : RegNum)
  /-- `lf.sflt.d rA,rB` (R327). -/
  | lfSfltD (rA rB : RegNum)
  /-- `lf.sflt.s rA,rB` (R328). -/
  | lfSfltS (rA rB : RegNum)
  /-- `lf.sfne.d rA,rB` (R329). -/
  | lfSfneD (rA rB : RegNum)
  /-- `lf.sfne.s rA,rB` (R330). -/
  | lfSfneS (rA rB : RegNum)
  /-- `lf.sub.d rD,rA,rB` (R331). -/
  | lfSubD (rD rA rB : RegNum)
  /-- `lf.sub.s rD,rA,rB` (R332). -/
  | lfSubS (rD rA rB : RegNum)
  /-- `lv.add.b rD,rA,rB` (R355). -/
  | lvAddB (rD rA rB : RegNum)
  /-- `lv.add.h rD,rA,rB` (R356). -/
  | lvAddH (rD rA rB : RegNum)
  /-- `lv.adds.b rD,rA,rB` (R357). -/
  | lvAddsB (rD rA rB : RegNum)
  /-- `lv.adds.h rD,rA,rB` (R358). -/
  | lvAddsH (rD rA rB : RegNum)
  /-- `lv.addu.b rD,rA,rB` (R359). -/
  | lvAdduB (rD rA rB : RegNum)
  /-- `lv.addu.h rD,rA,rB` (R360). -/
  | lvAdduH (rD rA rB : RegNum)
  /-- `lv.addus.b rD,rA,rB` (R361). -/
  | lvAddusB (rD rA rB : RegNum)
  /-- `lv.addus.h rD,rA,rB` (R362). -/
  | lvAddusH (rD rA rB : RegNum)
  /-- `lv.all_eq.b rD,rA,rB` (R363). -/
  | lvAllEqB (rD rA rB : RegNum)
  /-- `lv.all_eq.h rD,rA,rB` (R364). -/
  | lvAllEqH (rD rA rB : RegNum)
  /-- `lv.all_ge.b rD,rA,rB` (R365). -/
  | lvAllGeB (rD rA rB : RegNum)
  /-- `lv.all_ge.h rD,rA,rB` (R366). -/
  | lvAllGeH (rD rA rB : RegNum)
  /-- `lv.all_gt.b rD,rA,rB` (R367). -/
  | lvAllGtB (rD rA rB : RegNum)
  /-- `lv.all_gt.h rD,rA,rB` (R368). -/
  | lvAllGtH (rD rA rB : RegNum)
  /-- `lv.all_le.b rD,rA,rB` (R369). -/
  | lvAllLeB (rD rA rB : RegNum)
  /-- `lv.all_le.h rD,rA,rB` (R370). -/
  | lvAllLeH (rD rA rB : RegNum)
  /-- `lv.all_lt.b rD,rA,rB` (R371). -/
  | lvAllLtB (rD rA rB : RegNum)
  /-- `lv.all_lt.h rD,rA,rB` (R372). -/
  | lvAllLtH (rD rA rB : RegNum)
  /-- `lv.all_ne.b rD,rA,rB` (R373). -/
  | lvAllNeB (rD rA rB : RegNum)
  /-- `lv.all_ne.h rD,rA,rB` (R374). -/
  | lvAllNeH (rD rA rB : RegNum)
  /-- `lv.and rD,rA,rB` (R375). -/
  | lvAnd (rD rA rB : RegNum)
  /-- `lv.any_eq.b rD,rA,rB` (R376). -/
  | lvAnyEqB (rD rA rB : RegNum)
  /-- `lv.any_eq.h rD,rA,rB` (R377). -/
  | lvAnyEqH (rD rA rB : RegNum)
  /-- `lv.any_ge.b rD,rA,rB` (R378). -/
  | lvAnyGeB (rD rA rB : RegNum)
  /-- `lv.any_ge.h rD,rA,rB` (R379). -/
  | lvAnyGeH (rD rA rB : RegNum)
  /-- `lv.any_gt.b rD,rA,rB` (R380). -/
  | lvAnyGtB (rD rA rB : RegNum)
  /-- `lv.any_gt.h rD,rA,rB` (R381). -/
  | lvAnyGtH (rD rA rB : RegNum)
  /-- `lv.any_le.b rD,rA,rB` (R382). -/
  | lvAnyLeB (rD rA rB : RegNum)
  /-- `lv.any_le.h rD,rA,rB` (R383). -/
  | lvAnyLeH (rD rA rB : RegNum)
  /-- `lv.any_lt.b rD,rA,rB` (R384). -/
  | lvAnyLtB (rD rA rB : RegNum)
  /-- `lv.any_lt.h rD,rA,rB` (R385). -/
  | lvAnyLtH (rD rA rB : RegNum)
  /-- `lv.any_ne.b rD,rA,rB` (R386). -/
  | lvAnyNeB (rD rA rB : RegNum)
  /-- `lv.any_ne.h rD,rA,rB` (R387). -/
  | lvAnyNeH (rD rA rB : RegNum)
  /-- `lv.avg.b rD,rA,rB` (R388). -/
  | lvAvgB (rD rA rB : RegNum)
  /-- `lv.avg.h rD,rA,rB` (R389). -/
  | lvAvgH (rD rA rB : RegNum)
  /-- `lv.cmp_eq.b rD,rA,rB` (R390). -/
  | lvCmpEqB (rD rA rB : RegNum)
  /-- `lv.cmp_eq.h rD,rA,rB` (R391). -/
  | lvCmpEqH (rD rA rB : RegNum)
  /-- `lv.cmp_ge.b rD,rA,rB` (R392). -/
  | lvCmpGeB (rD rA rB : RegNum)
  /-- `lv.cmp_ge.h rD,rA,rB` (R393). -/
  | lvCmpGeH (rD rA rB : RegNum)
  /-- `lv.cmp_gt.b rD,rA,rB` (R394). -/
  | lvCmpGtB (rD rA rB : RegNum)
  /-- `lv.cmp_gt.h rD,rA,rB` (R395). -/
  | lvCmpGtH (rD rA rB : RegNum)
  /-- `lv.cmp_le.b rD,rA,rB` (R396). -/
  | lvCmpLeB (rD rA rB : RegNum)
  /-- `lv.cmp_le.h rD,rA,rB` (R397). -/
  | lvCmpLeH (rD rA rB : RegNum)
  /-- `lv.cmp_lt.b rD,rA,rB` (R398). -/
  | lvCmpLtB (rD rA rB : RegNum)
  /-- `lv.cmp_lt.h rD,rA,rB` (R399). -/
  | lvCmpLtH (rD rA rB : RegNum)
  /-- `lv.cmp_ne.b rD,rA,rB` (R400). -/
  | lvCmpNeB (rD rA rB : RegNum)
  /-- `lv.cmp_ne.h rD,rA,rB` (R401). -/
  | lvCmpNeH (rD rA rB : RegNum)
  /-- `lv.cust1` (R402). -/
  | lvCust1 (hi : BitVec 18) (lo : BitVec 4)
  /-- `lv.cust2` (R403). -/
  | lvCust2 (hi : BitVec 18) (lo : BitVec 4)
  /-- `lv.cust3` (R404). -/
  | lvCust3 (hi : BitVec 18) (lo : BitVec 4)
  /-- `lv.cust4` (R405). -/
  | lvCust4 (hi : BitVec 18) (lo : BitVec 4)
  /-- `lv.madds.h rD,rA,rB` (R430). -/
  | lvMaddsH (rD rA rB : RegNum)
  /-- `lv.max.b rD,rA,rB` (R431). -/
  | lvMaxB (rD rA rB : RegNum)
  /-- `lv.max.h rD,rA,rB` (R432). -/
  | lvMaxH (rD rA rB : RegNum)
  /-- `lv.merge.b rD,rA,rB` (R433). -/
  | lvMergeB (rD rA rB : RegNum)
  /-- `lv.merge.h rD,rA,rB` (R434). -/
  | lvMergeH (rD rA rB : RegNum)
  /-- `lv.min.b rD,rA,rB` (R435). -/
  | lvMinB (rD rA rB : RegNum)
  /-- `lv.min.h rD,rA,rB` (R436). -/
  | lvMinH (rD rA rB : RegNum)
  /-- `lv.msubs.h rD,rA,rB` (R437). -/
  | lvMsubsH (rD rA rB : RegNum)
  /-- `lv.muls.h rD,rA,rB` (R438). -/
  | lvMulsH (rD rA rB : RegNum)
  /-- `lv.nand rD,rA,rB` (R439). -/
  | lvNand (rD rA rB : RegNum)
  /-- `lv.nor rD,rA,rB` (R440). -/
  | lvNor (rD rA rB : RegNum)
  /-- `lv.or rD,rA,rB` (R441). -/
  | lvOr (rD rA rB : RegNum)
  /-- `lv.pack.b rD,rA,rB` (R442). -/
  | lvPackB (rD rA rB : RegNum)
  /-- `lv.pack.h rD,rA,rB` (R443). -/
  | lvPackH (rD rA rB : RegNum)
  /-- `lv.packs.b rD,rA,rB` (R444). -/
  | lvPacksB (rD rA rB : RegNum)
  /-- `lv.packs.h rD,rA,rB` (R445). -/
  | lvPacksH (rD rA rB : RegNum)
  /-- `lv.packus.b rD,rA,rB` (R446). -/
  | lvPackusB (rD rA rB : RegNum)
  /-- `lv.packus.h rD,rA,rB` (R447). -/
  | lvPackusH (rD rA rB : RegNum)
  /-- `lv.perm.n rD,rA,rB` (R448). -/
  | lvPermN (rD rA rB : RegNum)
  /-- `lv.rl.b rD,rA,rB` (R449). -/
  | lvRlB (rD rA rB : RegNum)
  /-- `lv.rl.h rD,rA,rB` (R450). -/
  | lvRlH (rD rA rB : RegNum)
  /-- `lv.sll rD,rA,rB` (R451). -/
  | lvSll (rD rA rB : RegNum)
  /-- `lv.sll.b rD,rA,rB` (R452). -/
  | lvSllB (rD rA rB : RegNum)
  /-- `lv.sll.h rD,rA,rB` (R453). -/
  | lvSllH (rD rA rB : RegNum)
  /-- `lv.sra.b rD,rA,rB` (R454). -/
  | lvSraB (rD rA rB : RegNum)
  /-- `lv.sra.h rD,rA,rB` (R455). -/
  | lvSraH (rD rA rB : RegNum)
  /-- `lv.srl rD,rA,rB` (R456). -/
  | lvSrl (rD rA rB : RegNum)
  /-- `lv.srl.b rD,rA,rB` (R457). -/
  | lvSrlB (rD rA rB : RegNum)
  /-- `lv.srl.h rD,rA,rB` (R458). -/
  | lvSrlH (rD rA rB : RegNum)
  /-- `lv.sub.b rD,rA,rB` (R459). -/
  | lvSubB (rD rA rB : RegNum)
  /-- `lv.sub.h rD,rA,rB` (R460). -/
  | lvSubH (rD rA rB : RegNum)
  /-- `lv.subs.b rD,rA,rB` (R461). -/
  | lvSubsB (rD rA rB : RegNum)
  /-- `lv.subs.h rD,rA,rB` (R462). -/
  | lvSubsH (rD rA rB : RegNum)
  /-- `lv.subu.b rD,rA,rB` (R463). -/
  | lvSubuB (rD rA rB : RegNum)
  /-- `lv.subu.h rD,rA,rB` (R464). -/
  | lvSubuH (rD rA rB : RegNum)
  /-- `lv.subus.b rD,rA,rB` (R465). -/
  | lvSubusB (rD rA rB : RegNum)
  /-- `lv.subus.h rD,rA,rB` (R466). -/
  | lvSubusH (rD rA rB : RegNum)
  /-- `lv.unpack.b rD,rA,rB` (R467). -/
  | lvUnpackB (rD rA rB : RegNum)
  /-- `lv.unpack.h rD,rA,rB` (R468). -/
  | lvUnpackH (rD rA rB : RegNum)
  /-- `lv.xor rD,rA,rB` (R469). -/
  | lvXor (rD rA rB : RegNum)
  deriving DecidableEq, Repr

end Sys2Proof
end

