-- ==== Sys2Proof/Decode.lean ====
section
/-! DEFINITION. Decoding an instruction word (R100 to R115) and, after it, encoding one. The
table of rows is data that can be corrected in one place, as R110 asks; both directions are
written from the spec's encoding tables. -/

namespace Sys2Proof

/-- The `n` bits of `w` from bit `lo` up (R7). -/
def field (lo n : Nat) (w : InsnWord) : BitVec n := w.extractLsb' lo n

/-- The register fields `rD`, `rA`, `rB` (R103). -/
def fieldD (w : InsnWord) : RegNum := field 21 5 w
def fieldA (w : InsnWord) : RegNum := field 16 5 w
def fieldB (w : InsnWord) : RegNum := field 11 5 w

/-- The 16-bit immediate in bits 15:0, and the one split over bits 25:21 and 10:0 (R103). -/
def fieldI (w : InsnWord) : BitVec 16 := field 0 16 w
def fieldSplit (w : InsnWord) : BitVec 16 := field 21 5 w ++ field 0 11 w

/-- The `-` bits of the `FCUST` format, which R305 and R306 let an implementation use (log entry 29). -/
def fieldFree (w : InsnWord) : BitVec 12 := field 21 5 w ++ field 8 3 w ++ field 0 4 w

/-! The operands of each shape of format (R104), handed to a constructor. -/

def ofDAB (c : RegNum → RegNum → RegNum → Instr) (w : InsnWord) : Instr := c (fieldD w) (fieldA w) (fieldB w)
def ofDAI (c : RegNum → RegNum → BitVec 16 → Instr) (w : InsnWord) : Instr := c (fieldD w) (fieldA w) (fieldI w)
def ofDAL (c : RegNum → RegNum → BitVec 6 → Instr) (w : InsnWord) : Instr := c (fieldD w) (fieldA w) (field 0 6 w)
def ofDA (c : RegNum → RegNum → Instr) (w : InsnWord) : Instr := c (fieldD w) (fieldA w)
def ofAB (c : RegNum → RegNum → Instr) (w : InsnWord) : Instr := c (fieldA w) (fieldB w)
def ofAI (c : RegNum → BitVec 16 → Instr) (w : InsnWord) : Instr := c (fieldA w) (fieldI w)
def ofDI (c : RegNum → BitVec 16 → Instr) (w : InsnWord) : Instr := c (fieldD w) (fieldI w)
def ofABSplit (c : RegNum → RegNum → BitVec 16 → Instr) (w : InsnWord) : Instr :=
  c (fieldA w) (fieldB w) (fieldSplit w)
def ofABCust (c : RegNum → RegNum → BitVec 12 → Instr) (w : InsnWord) : Instr :=
  c (fieldA w) (fieldB w) (fieldFree w)
def ofD (c : RegNum → Instr) (w : InsnWord) : Instr := c (fieldD w)
def ofB (c : RegNum → Instr) (w : InsnWord) : Instr := c (fieldB w)
def ofI (c : BitVec 16 → Instr) (w : InsnWord) : Instr := c (fieldI w)
def ofN (c : BitVec 26 → Instr) (w : InsnWord) : Instr := c (field 0 26 w)
def ofCust (c : BitVec 26 → Instr) (w : InsnWord) : Instr := c (field 0 26 w)
def ofCust5 (c : RegNum → RegNum → RegNum → BitVec 6 → BitVec 5 → Instr) (w : InsnWord) : Instr :=
  c (fieldD w) (fieldA w) (fieldB w) (field 5 6 w) (field 0 5 w)
def ofVCust (c : BitVec 18 → BitVec 4 → Instr) (w : InsnWord) : Instr := c (field 8 18 w) (field 0 4 w)
def ofZ (c : Instr) (_ : InsnWord) : Instr := c

/-- One row of the opcode table: the identifying bits and their mask, the bits that must be
zero (R111), and the instruction the operand fields make. -/
structure OpcodeRow where
  mnemonic : String
  pattern  : InsnWord
  mask     : InsnWord
  reserved : InsnWord
  build    : InsnWord → Instr

/-- The `l.` rows, first part (R105 to R108). -/
def opcodeRowsL1 : List OpcodeRow :=
  [⟨"l.add", 0xE0000000#32, 0xFC00030F#32, 0x000004F0#32, ofDAB .lAdd⟩,
   ⟨"l.addc", 0xE0000001#32, 0xFC00030F#32, 0x000004F0#32, ofDAB .lAddc⟩,
   ⟨"l.addi", 0x9C000000#32, 0xFC000000#32, 0x00000000#32, ofDAI .lAddi⟩,
   ⟨"l.addic", 0xA0000000#32, 0xFC000000#32, 0x00000000#32, ofDAI .lAddic⟩,
   ⟨"l.and", 0xE0000003#32, 0xFC00030F#32, 0x000004F0#32, ofDAB .lAnd⟩,
   ⟨"l.andi", 0xA4000000#32, 0xFC000000#32, 0x00000000#32, ofDAI .lAndi⟩,
   ⟨"l.bf", 0x10000000#32, 0xFC000000#32, 0x00000000#32, ofN .lBf⟩,
   ⟨"l.bnf", 0x0C000000#32, 0xFC000000#32, 0x00000000#32, ofN .lBnf⟩,
   ⟨"l.cmov", 0xE000000E#32, 0xFC00030F#32, 0x000004F0#32, ofDAB .lCmov⟩,
   ⟨"l.csync", 0x23000000#32, 0xFF800000#32, 0x007FFFFF#32, ofZ .lCsync⟩,
   ⟨"l.cust1", 0x70000000#32, 0xFC000000#32, 0x00000000#32, ofCust .lCust1⟩,
   ⟨"l.cust2", 0x74000000#32, 0xFC000000#32, 0x00000000#32, ofCust .lCust2⟩,
   ⟨"l.cust3", 0x78000000#32, 0xFC000000#32, 0x00000000#32, ofCust .lCust3⟩,
   ⟨"l.cust4", 0x7C000000#32, 0xFC000000#32, 0x00000000#32, ofCust .lCust4⟩,
   ⟨"l.cust5", 0xF0000000#32, 0xFC000000#32, 0x00000000#32, ofCust5 .lCust5⟩,
   ⟨"l.cust6", 0xF4000000#32, 0xFC000000#32, 0x00000000#32, ofCust .lCust6⟩,
   ⟨"l.cust7", 0xF8000000#32, 0xFC000000#32, 0x00000000#32, ofCust .lCust7⟩,
   ⟨"l.cust8", 0xFC000000#32, 0xFC000000#32, 0x00000000#32, ofCust .lCust8⟩,
   ⟨"l.div", 0xE0000309#32, 0xFC00030F#32, 0x000004F0#32, ofDAB .lDiv⟩,
   ⟨"l.divu", 0xE000030A#32, 0xFC00030F#32, 0x000004F0#32, ofDAB .lDivu⟩,
   ⟨"l.extbs", 0xE000004C#32, 0xFC0003CF#32, 0x0000FC30#32, ofDA .lExtbs⟩,
   ⟨"l.extbz", 0xE00000CC#32, 0xFC0003CF#32, 0x0000FC30#32, ofDA .lExtbz⟩,
   ⟨"l.exths", 0xE000000C#32, 0xFC0003CF#32, 0x0000FC30#32, ofDA .lExths⟩,
   ⟨"l.exthz", 0xE000008C#32, 0xFC0003CF#32, 0x0000FC30#32, ofDA .lExthz⟩,
   ⟨"l.extws", 0xE000000D#32, 0xFC0003CF#32, 0x0000FC30#32, ofDA .lExtws⟩,
   ⟨"l.extwz", 0xE000004D#32, 0xFC0003CF#32, 0x0000FC30#32, ofDA .lExtwz⟩,
   ⟨"l.ff1", 0xE000000F#32, 0xFC00030F#32, 0x000004F0#32, ofDAB .lFf1⟩,
   ⟨"l.fl1", 0xE000010F#32, 0xFC00030F#32, 0x000004F0#32, ofDAB .lFl1⟩,
   ⟨"l.j", 0x00000000#32, 0xFC000000#32, 0x00000000#32, ofN .lJ⟩,
   ⟨"l.jal", 0x04000000#32, 0xFC000000#32, 0x00000000#32, ofN .lJal⟩,
   ⟨"l.jalr", 0x48000000#32, 0xFC000000#32, 0x03FF07FF#32, ofB .lJalr⟩,
   ⟨"l.jr", 0x44000000#32, 0xFC000000#32, 0x03FF07FF#32, ofB .lJr⟩,
   ⟨"l.lbs", 0x90000000#32, 0xFC000000#32, 0x00000000#32, ofDAI .lLbs⟩,
   ⟨"l.lbz", 0x8C000000#32, 0xFC000000#32, 0x00000000#32, ofDAI .lLbz⟩,
   ⟨"l.ld", 0x80000000#32, 0xFC000000#32, 0x00000000#32, ofDAI .lLd⟩,
   ⟨"l.lhs", 0x98000000#32, 0xFC000000#32, 0x00000000#32, ofDAI .lLhs⟩,
   ⟨"l.lhz", 0x94000000#32, 0xFC000000#32, 0x00000000#32, ofDAI .lLhz⟩,
   ⟨"l.lwa", 0x6C000000#32, 0xFC000000#32, 0x00000000#32, ofDAI .lLwa⟩,
   ⟨"l.lws", 0x88000000#32, 0xFC000000#32, 0x00000000#32, ofDAI .lLws⟩,
   ⟨"l.lwz", 0x84000000#32, 0xFC000000#32, 0x00000000#32, ofDAI .lLwz⟩,
   ⟨"l.mac", 0xC4000001#32, 0xFC00000F#32, 0x03E007F0#32, ofAB .lMac⟩,
   ⟨"l.maci", 0x4C000000#32, 0xFC000000#32, 0x03E00000#32, ofAI .lMaci⟩,
   ⟨"l.macrc", 0x18010000#32, 0xFC01FFFF#32, 0x001E0000#32, ofD .lMacrc⟩,
   ⟨"l.macu", 0xC4000003#32, 0xFC00000F#32, 0x03E007F0#32, ofAB .lMacu⟩,
   ⟨"l.mfspr", 0xB4000000#32, 0xFC000000#32, 0x00000000#32, ofDAI .lMfspr⟩,
   ⟨"l.movhi", 0x18000000#32, 0xFC010000#32, 0x001E0000#32, ofDI .lMovhi⟩,
   ⟨"l.msb", 0xC4000002#32, 0xFC00000F#32, 0x03E007F0#32, ofAB .lMsb⟩,
   ⟨"l.msbu", 0xC4000004#32, 0xFC00000F#32, 0x03E007F0#32, ofAB .lMsbu⟩,
   ⟨"l.msync", 0x22000000#32, 0xFF800000#32, 0x007FFFFF#32, ofZ .lMsync⟩,
   ⟨"l.mtspr", 0xC0000000#32, 0xFC000000#32, 0x00000000#32, ofABSplit .lMtspr⟩]

/-- The `l.` rows, second part (R105 to R108). -/
def opcodeRowsL2 : List OpcodeRow :=
  [⟨"l.mul", 0xE0000306#32, 0xFC00030F#32, 0x000004F0#32, ofDAB .lMul⟩,
   ⟨"l.muld", 0xE0000307#32, 0xFC00030F#32, 0x03E004F0#32, ofAB .lMuld⟩,
   ⟨"l.muldu", 0xE000030C#32, 0xFC00030F#32, 0x03E004F0#32, ofAB .lMuldu⟩,
   ⟨"l.muli", 0xB0000000#32, 0xFC000000#32, 0x00000000#32, ofDAI .lMuli⟩,
   ⟨"l.mulu", 0xE000030B#32, 0xFC00030F#32, 0x000004F0#32, ofDAB .lMulu⟩,
   ⟨"l.nop", 0x15000000#32, 0xFF000000#32, 0x00FF0000#32, ofI .lNop⟩,
   ⟨"l.or", 0xE0000004#32, 0xFC00030F#32, 0x000004F0#32, ofDAB .lOr⟩,
   ⟨"l.ori", 0xA8000000#32, 0xFC000000#32, 0x00000000#32, ofDAI .lOri⟩,
   ⟨"l.psync", 0x22800000#32, 0xFF800000#32, 0x007FFFFF#32, ofZ .lPsync⟩,
   ⟨"l.rfe", 0x24000000#32, 0xFC000000#32, 0x03FFFFFF#32, ofZ .lRfe⟩,
   ⟨"l.ror", 0xE00000C8#32, 0xFC0003CF#32, 0x00000430#32, ofDAB .lRor⟩,
   ⟨"l.rori", 0xB80000C0#32, 0xFC0000C0#32, 0x0000FF00#32, ofDAL .lRori⟩,
   ⟨"l.sb", 0xD8000000#32, 0xFC000000#32, 0x00000000#32, ofABSplit .lSb⟩,
   ⟨"l.sd", 0xD0000000#32, 0xFC000000#32, 0x00000000#32, ofABSplit .lSd⟩,
   ⟨"l.sfeq", 0xE4000000#32, 0xFFE00000#32, 0x000007FF#32, ofAB .lSfeq⟩,
   ⟨"l.sfeqi", 0xBC000000#32, 0xFFE00000#32, 0x00000000#32, ofAI .lSfeqi⟩,
   ⟨"l.sfges", 0xE5600000#32, 0xFFE00000#32, 0x000007FF#32, ofAB .lSfges⟩,
   ⟨"l.sfgesi", 0xBD600000#32, 0xFFE00000#32, 0x00000000#32, ofAI .lSfgesi⟩,
   ⟨"l.sfgeu", 0xE4600000#32, 0xFFE00000#32, 0x000007FF#32, ofAB .lSfgeu⟩,
   ⟨"l.sfgeui", 0xBC600000#32, 0xFFE00000#32, 0x00000000#32, ofAI .lSfgeui⟩,
   ⟨"l.sfgts", 0xE5400000#32, 0xFFE00000#32, 0x000007FF#32, ofAB .lSfgts⟩,
   ⟨"l.sfgtsi", 0xBD400000#32, 0xFFE00000#32, 0x00000000#32, ofAI .lSfgtsi⟩,
   ⟨"l.sfgtu", 0xE4400000#32, 0xFFE00000#32, 0x000007FF#32, ofAB .lSfgtu⟩,
   ⟨"l.sfgtui", 0xBC400000#32, 0xFFE00000#32, 0x00000000#32, ofAI .lSfgtui⟩,
   ⟨"l.sfles", 0xE5A00000#32, 0xFFE00000#32, 0x000007FF#32, ofAB .lSfles⟩,
   ⟨"l.sflesi", 0xBDA00000#32, 0xFFE00000#32, 0x00000000#32, ofAI .lSflesi⟩,
   ⟨"l.sfleu", 0xE4A00000#32, 0xFFE00000#32, 0x000007FF#32, ofAB .lSfleu⟩,
   ⟨"l.sfleui", 0xBCA00000#32, 0xFFE00000#32, 0x00000000#32, ofAI .lSfleui⟩,
   ⟨"l.sflts", 0xE5800000#32, 0xFFE00000#32, 0x000007FF#32, ofAB .lSflts⟩,
   ⟨"l.sfltsi", 0xBD800000#32, 0xFFE00000#32, 0x00000000#32, ofAI .lSfltsi⟩,
   ⟨"l.sfltu", 0xE4800000#32, 0xFFE00000#32, 0x000007FF#32, ofAB .lSfltu⟩,
   ⟨"l.sfltui", 0xBC800000#32, 0xFFE00000#32, 0x00000000#32, ofAI .lSfltui⟩,
   ⟨"l.sfne", 0xE4200000#32, 0xFFE00000#32, 0x000007FF#32, ofAB .lSfne⟩,
   ⟨"l.sfnei", 0xBC200000#32, 0xFFE00000#32, 0x00000000#32, ofAI .lSfnei⟩,
   ⟨"l.sh", 0xDC000000#32, 0xFC000000#32, 0x00000000#32, ofABSplit .lSh⟩,
   ⟨"l.sll", 0xE0000008#32, 0xFC0003CF#32, 0x00000430#32, ofDAB .lSll⟩,
   ⟨"l.slli", 0xB8000000#32, 0xFC0000C0#32, 0x0000FF00#32, ofDAL .lSlli⟩,
   ⟨"l.sra", 0xE0000088#32, 0xFC0003CF#32, 0x00000430#32, ofDAB .lSra⟩,
   ⟨"l.srai", 0xB8000080#32, 0xFC0000C0#32, 0x0000FF00#32, ofDAL .lSrai⟩,
   ⟨"l.srl", 0xE0000048#32, 0xFC0003CF#32, 0x00000430#32, ofDAB .lSrl⟩,
   ⟨"l.srli", 0xB8000040#32, 0xFC0000C0#32, 0x0000FF00#32, ofDAL .lSrli⟩,
   ⟨"l.sub", 0xE0000002#32, 0xFC00030F#32, 0x000004F0#32, ofDAB .lSub⟩,
   ⟨"l.sw", 0xD4000000#32, 0xFC000000#32, 0x00000000#32, ofABSplit .lSw⟩,
   ⟨"l.swa", 0xCC000000#32, 0xFC000000#32, 0x00000000#32, ofABSplit .lSwa⟩,
   ⟨"l.sys", 0x20000000#32, 0xFFFF0000#32, 0x00000000#32, ofI .lSys⟩,
   ⟨"l.trap", 0x21000000#32, 0xFFFF0000#32, 0x00000000#32, ofI .lTrap⟩,
   ⟨"l.xor", 0xE0000005#32, 0xFC00030F#32, 0x000004F0#32, ofDAB .lXor⟩,
   ⟨"l.xori", 0xAC000000#32, 0xFC000000#32, 0x00000000#32, ofDAI .lXori⟩]

/-- The `lf.` rows (R109). DESIGN CHOICE (log entry 29): R104 shows bits 25:21, 10:8 and 3:0 of `lf.cust1.*`
as reserved, R305 and R306 call every unnamed bit free for the implementation; the rows carry them, and the
parameter `fcustReserved`, by default all of them, says which must be zero (R111). -/
def opcodeRowsLf : List OpcodeRow :=
  [⟨"lf.add.d", 0xC8000010#32, 0xFC0000FF#32, 0x00000700#32, ofDAB .lfAddD⟩,
   ⟨"lf.add.s", 0xC8000000#32, 0xFC0000FF#32, 0x00000700#32, ofDAB .lfAddS⟩,
   ⟨"lf.cust1.d", 0xC80000E0#32, 0xFC0000F0#32, 0x00000000#32, ofABCust .lfCust1D⟩,
   ⟨"lf.cust1.s", 0xC80000D0#32, 0xFC0000F0#32, 0x00000000#32, ofABCust .lfCust1S⟩,
   ⟨"lf.div.d", 0xC8000013#32, 0xFC0000FF#32, 0x00000700#32, ofDAB .lfDivD⟩,
   ⟨"lf.div.s", 0xC8000003#32, 0xFC0000FF#32, 0x00000700#32, ofDAB .lfDivS⟩,
   ⟨"lf.ftoi.d", 0xC8000015#32, 0xFC0000FF#32, 0x0000FF00#32, ofDA .lfFtoiD⟩,
   ⟨"lf.ftoi.s", 0xC8000005#32, 0xFC0000FF#32, 0x0000FF00#32, ofDA .lfFtoiS⟩,
   ⟨"lf.itof.d", 0xC8000014#32, 0xFC0000FF#32, 0x0000FF00#32, ofDA .lfItofD⟩,
   ⟨"lf.itof.s", 0xC8000004#32, 0xFC0000FF#32, 0x0000FF00#32, ofDA .lfItofS⟩,
   ⟨"lf.madd.d", 0xC8000017#32, 0xFC0000FF#32, 0x00000700#32, ofDAB .lfMaddD⟩,
   ⟨"lf.madd.s", 0xC8000007#32, 0xFC0000FF#32, 0x00000700#32, ofDAB .lfMaddS⟩,
   ⟨"lf.mul.d", 0xC8000012#32, 0xFC0000FF#32, 0x00000700#32, ofDAB .lfMulD⟩,
   ⟨"lf.mul.s", 0xC8000002#32, 0xFC0000FF#32, 0x00000700#32, ofDAB .lfMulS⟩,
   ⟨"lf.rem.d", 0xC8000016#32, 0xFC0000FF#32, 0x00000700#32, ofDAB .lfRemD⟩,
   ⟨"lf.rem.s", 0xC8000006#32, 0xFC0000FF#32, 0x00000700#32, ofDAB .lfRemS⟩,
   ⟨"lf.sfeq.d", 0xC8000018#32, 0xFC0000FF#32, 0x03E00700#32, ofAB .lfSfeqD⟩,
   ⟨"lf.sfeq.s", 0xC8000008#32, 0xFC0000FF#32, 0x03E00700#32, ofAB .lfSfeqS⟩,
   ⟨"lf.sfge.d", 0xC800001B#32, 0xFC0000FF#32, 0x03E00700#32, ofAB .lfSfgeD⟩,
   ⟨"lf.sfge.s", 0xC800000B#32, 0xFC0000FF#32, 0x03E00700#32, ofAB .lfSfgeS⟩,
   ⟨"lf.sfgt.d", 0xC800001A#32, 0xFC0000FF#32, 0x03E00700#32, ofAB .lfSfgtD⟩,
   ⟨"lf.sfgt.s", 0xC800000A#32, 0xFC0000FF#32, 0x03E00700#32, ofAB .lfSfgtS⟩,
   ⟨"lf.sfle.d", 0xC800001D#32, 0xFC0000FF#32, 0x03E00700#32, ofAB .lfSfleD⟩,
   ⟨"lf.sfle.s", 0xC800000D#32, 0xFC0000FF#32, 0x03E00700#32, ofAB .lfSfleS⟩,
   ⟨"lf.sflt.d", 0xC800001C#32, 0xFC0000FF#32, 0x03E00700#32, ofAB .lfSfltD⟩,
   ⟨"lf.sflt.s", 0xC800000C#32, 0xFC0000FF#32, 0x03E00700#32, ofAB .lfSfltS⟩,
   ⟨"lf.sfne.d", 0xC8000019#32, 0xFC0000FF#32, 0x03E00700#32, ofAB .lfSfneD⟩,
   ⟨"lf.sfne.s", 0xC8000009#32, 0xFC0000FF#32, 0x03E00700#32, ofAB .lfSfneS⟩,
   ⟨"lf.sub.d", 0xC8000011#32, 0xFC0000FF#32, 0x00000700#32, ofDAB .lfSubD⟩,
   ⟨"lf.sub.s", 0xC8000001#32, 0xFC0000FF#32, 0x00000700#32, ofDAB .lfSubS⟩]

/-- The `lv.` rows, first part (R110). -/
def opcodeRowsLv1 : List OpcodeRow :=
  [⟨"lv.add.b", 0x28000030#32, 0xFC0000FF#32, 0x00000700#32, ofDAB .lvAddB⟩,
   ⟨"lv.add.h", 0x28000031#32, 0xFC0000FF#32, 0x00000700#32, ofDAB .lvAddH⟩,
   ⟨"lv.adds.b", 0x28000032#32, 0xFC0000FF#32, 0x00000700#32, ofDAB .lvAddsB⟩,
   ⟨"lv.adds.h", 0x28000033#32, 0xFC0000FF#32, 0x00000700#32, ofDAB .lvAddsH⟩,
   ⟨"lv.addu.b", 0x28000034#32, 0xFC0000FF#32, 0x00000700#32, ofDAB .lvAdduB⟩,
   ⟨"lv.addu.h", 0x28000035#32, 0xFC0000FF#32, 0x00000700#32, ofDAB .lvAdduH⟩,
   ⟨"lv.addus.b", 0x28000036#32, 0xFC0000FF#32, 0x00000700#32, ofDAB .lvAddusB⟩,
   ⟨"lv.addus.h", 0x28000037#32, 0xFC0000FF#32, 0x00000700#32, ofDAB .lvAddusH⟩,
   ⟨"lv.all_eq.b", 0x28000010#32, 0xFC0000FF#32, 0x00000700#32, ofDAB .lvAllEqB⟩,
   ⟨"lv.all_eq.h", 0x28000011#32, 0xFC0000FF#32, 0x00000700#32, ofDAB .lvAllEqH⟩,
   ⟨"lv.all_ge.b", 0x28000012#32, 0xFC0000FF#32, 0x00000700#32, ofDAB .lvAllGeB⟩,
   ⟨"lv.all_ge.h", 0x28000013#32, 0xFC0000FF#32, 0x00000700#32, ofDAB .lvAllGeH⟩,
   ⟨"lv.all_gt.b", 0x28000014#32, 0xFC0000FF#32, 0x00000700#32, ofDAB .lvAllGtB⟩,
   ⟨"lv.all_gt.h", 0x28000015#32, 0xFC0000FF#32, 0x00000700#32, ofDAB .lvAllGtH⟩,
   ⟨"lv.all_le.b", 0x28000016#32, 0xFC0000FF#32, 0x00000700#32, ofDAB .lvAllLeB⟩,
   ⟨"lv.all_le.h", 0x28000017#32, 0xFC0000FF#32, 0x00000700#32, ofDAB .lvAllLeH⟩,
   ⟨"lv.all_lt.b", 0x28000018#32, 0xFC0000FF#32, 0x00000700#32, ofDAB .lvAllLtB⟩,
   ⟨"lv.all_lt.h", 0x28000019#32, 0xFC0000FF#32, 0x00000700#32, ofDAB .lvAllLtH⟩,
   ⟨"lv.all_ne.b", 0x2800001A#32, 0xFC0000FF#32, 0x00000700#32, ofDAB .lvAllNeB⟩,
   ⟨"lv.all_ne.h", 0x2800001B#32, 0xFC0000FF#32, 0x00000700#32, ofDAB .lvAllNeH⟩,
   ⟨"lv.and", 0x28000038#32, 0xFC0000FF#32, 0x00000700#32, ofDAB .lvAnd⟩,
   ⟨"lv.any_eq.b", 0x28000020#32, 0xFC0000FF#32, 0x00000700#32, ofDAB .lvAnyEqB⟩,
   ⟨"lv.any_eq.h", 0x28000021#32, 0xFC0000FF#32, 0x00000700#32, ofDAB .lvAnyEqH⟩,
   ⟨"lv.any_ge.b", 0x28000022#32, 0xFC0000FF#32, 0x00000700#32, ofDAB .lvAnyGeB⟩,
   ⟨"lv.any_ge.h", 0x28000023#32, 0xFC0000FF#32, 0x00000700#32, ofDAB .lvAnyGeH⟩,
   ⟨"lv.any_gt.b", 0x28000024#32, 0xFC0000FF#32, 0x00000700#32, ofDAB .lvAnyGtB⟩,
   ⟨"lv.any_gt.h", 0x28000025#32, 0xFC0000FF#32, 0x00000700#32, ofDAB .lvAnyGtH⟩,
   ⟨"lv.any_le.b", 0x28000026#32, 0xFC0000FF#32, 0x00000700#32, ofDAB .lvAnyLeB⟩,
   ⟨"lv.any_le.h", 0x28000027#32, 0xFC0000FF#32, 0x00000700#32, ofDAB .lvAnyLeH⟩,
   ⟨"lv.any_lt.b", 0x28000028#32, 0xFC0000FF#32, 0x00000700#32, ofDAB .lvAnyLtB⟩,
   ⟨"lv.any_lt.h", 0x28000029#32, 0xFC0000FF#32, 0x00000700#32, ofDAB .lvAnyLtH⟩,
   ⟨"lv.any_ne.b", 0x2800002A#32, 0xFC0000FF#32, 0x00000700#32, ofDAB .lvAnyNeB⟩,
   ⟨"lv.any_ne.h", 0x2800002B#32, 0xFC0000FF#32, 0x00000700#32, ofDAB .lvAnyNeH⟩,
   ⟨"lv.avg.b", 0x28000039#32, 0xFC0000FF#32, 0x00000700#32, ofDAB .lvAvgB⟩,
   ⟨"lv.avg.h", 0x2800003A#32, 0xFC0000FF#32, 0x00000700#32, ofDAB .lvAvgH⟩,
   ⟨"lv.cmp_eq.b", 0x28000040#32, 0xFC0000FF#32, 0x00000700#32, ofDAB .lvCmpEqB⟩,
   ⟨"lv.cmp_eq.h", 0x28000041#32, 0xFC0000FF#32, 0x00000700#32, ofDAB .lvCmpEqH⟩,
   ⟨"lv.cmp_ge.b", 0x28000042#32, 0xFC0000FF#32, 0x00000700#32, ofDAB .lvCmpGeB⟩,
   ⟨"lv.cmp_ge.h", 0x28000043#32, 0xFC0000FF#32, 0x00000700#32, ofDAB .lvCmpGeH⟩,
   ⟨"lv.cmp_gt.b", 0x28000044#32, 0xFC0000FF#32, 0x00000700#32, ofDAB .lvCmpGtB⟩,
   ⟨"lv.cmp_gt.h", 0x28000045#32, 0xFC0000FF#32, 0x00000700#32, ofDAB .lvCmpGtH⟩,
   ⟨"lv.cmp_le.b", 0x28000046#32, 0xFC0000FF#32, 0x00000700#32, ofDAB .lvCmpLeB⟩,
   ⟨"lv.cmp_le.h", 0x28000047#32, 0xFC0000FF#32, 0x00000700#32, ofDAB .lvCmpLeH⟩,
   ⟨"lv.cmp_lt.b", 0x28000048#32, 0xFC0000FF#32, 0x00000700#32, ofDAB .lvCmpLtB⟩,
   ⟨"lv.cmp_lt.h", 0x28000049#32, 0xFC0000FF#32, 0x00000700#32, ofDAB .lvCmpLtH⟩,
   ⟨"lv.cmp_ne.b", 0x2800004A#32, 0xFC0000FF#32, 0x00000700#32, ofDAB .lvCmpNeB⟩]

/-- The `lv.` rows, second part (R110). DESIGN CHOICE (log entry 29): R104 and R110 show bits 25:8 and 3:0 of
`lv.cust1` to `lv.cust4` as reserved, R402 to R405 call them free for the implementation; the rows carry
them, and the parameter `vcustReserved`, by default all of them, says which must be zero (R111). -/
def opcodeRowsLv2 : List OpcodeRow :=
  [⟨"lv.cmp_ne.h", 0x2800004B#32, 0xFC0000FF#32, 0x00000700#32, ofDAB .lvCmpNeH⟩,
   ⟨"lv.cust1", 0x280000C0#32, 0xFC0000F0#32, 0x00000000#32, ofVCust .lvCust1⟩,
   ⟨"lv.cust2", 0x280000D0#32, 0xFC0000F0#32, 0x00000000#32, ofVCust .lvCust2⟩,
   ⟨"lv.cust3", 0x280000E0#32, 0xFC0000F0#32, 0x00000000#32, ofVCust .lvCust3⟩,
   ⟨"lv.cust4", 0x280000F0#32, 0xFC0000F0#32, 0x00000000#32, ofVCust .lvCust4⟩,
   ⟨"lv.madds.h", 0x28000054#32, 0xFC0000FF#32, 0x00000700#32, ofDAB .lvMaddsH⟩,
   ⟨"lv.max.b", 0x28000055#32, 0xFC0000FF#32, 0x00000700#32, ofDAB .lvMaxB⟩,
   ⟨"lv.max.h", 0x28000056#32, 0xFC0000FF#32, 0x00000700#32, ofDAB .lvMaxH⟩,
   ⟨"lv.merge.b", 0x28000057#32, 0xFC0000FF#32, 0x00000700#32, ofDAB .lvMergeB⟩,
   ⟨"lv.merge.h", 0x28000058#32, 0xFC0000FF#32, 0x00000700#32, ofDAB .lvMergeH⟩,
   ⟨"lv.min.b", 0x28000059#32, 0xFC0000FF#32, 0x00000700#32, ofDAB .lvMinB⟩,
   ⟨"lv.min.h", 0x2800005A#32, 0xFC0000FF#32, 0x00000700#32, ofDAB .lvMinH⟩,
   ⟨"lv.msubs.h", 0x2800005B#32, 0xFC0000FF#32, 0x00000700#32, ofDAB .lvMsubsH⟩,
   ⟨"lv.muls.h", 0x2800005C#32, 0xFC0000FF#32, 0x00000700#32, ofDAB .lvMulsH⟩,
   ⟨"lv.nand", 0x2800005D#32, 0xFC0000FF#32, 0x00000700#32, ofDAB .lvNand⟩,
   ⟨"lv.nor", 0x2800005E#32, 0xFC0000FF#32, 0x00000700#32, ofDAB .lvNor⟩,
   ⟨"lv.or", 0x2800005F#32, 0xFC0000FF#32, 0x00000700#32, ofDAB .lvOr⟩,
   ⟨"lv.pack.b", 0x28000060#32, 0xFC0000FF#32, 0x00000700#32, ofDAB .lvPackB⟩,
   ⟨"lv.pack.h", 0x28000061#32, 0xFC0000FF#32, 0x00000700#32, ofDAB .lvPackH⟩,
   ⟨"lv.packs.b", 0x28000062#32, 0xFC0000FF#32, 0x00000700#32, ofDAB .lvPacksB⟩,
   ⟨"lv.packs.h", 0x28000063#32, 0xFC0000FF#32, 0x00000700#32, ofDAB .lvPacksH⟩,
   ⟨"lv.packus.b", 0x28000064#32, 0xFC0000FF#32, 0x00000700#32, ofDAB .lvPackusB⟩,
   ⟨"lv.packus.h", 0x28000065#32, 0xFC0000FF#32, 0x00000700#32, ofDAB .lvPackusH⟩,
   ⟨"lv.perm.n", 0x28000066#32, 0xFC0000FF#32, 0x00000700#32, ofDAB .lvPermN⟩,
   ⟨"lv.rl.b", 0x28000067#32, 0xFC0000FF#32, 0x00000700#32, ofDAB .lvRlB⟩,
   ⟨"lv.rl.h", 0x28000068#32, 0xFC0000FF#32, 0x00000700#32, ofDAB .lvRlH⟩,
   ⟨"lv.sll", 0x2800006B#32, 0xFC0000FF#32, 0x00000700#32, ofDAB .lvSll⟩,
   ⟨"lv.sll.b", 0x28000069#32, 0xFC0000FF#32, 0x00000700#32, ofDAB .lvSllB⟩,
   ⟨"lv.sll.h", 0x2800006A#32, 0xFC0000FF#32, 0x00000700#32, ofDAB .lvSllH⟩,
   ⟨"lv.sra.b", 0x2800006E#32, 0xFC0000FF#32, 0x00000700#32, ofDAB .lvSraB⟩,
   ⟨"lv.sra.h", 0x2800006F#32, 0xFC0000FF#32, 0x00000700#32, ofDAB .lvSraH⟩,
   ⟨"lv.srl", 0x28000070#32, 0xFC0000FF#32, 0x00000700#32, ofDAB .lvSrl⟩,
   ⟨"lv.srl.b", 0x2800006C#32, 0xFC0000FF#32, 0x00000700#32, ofDAB .lvSrlB⟩,
   ⟨"lv.srl.h", 0x2800006D#32, 0xFC0000FF#32, 0x00000700#32, ofDAB .lvSrlH⟩,
   ⟨"lv.sub.b", 0x28000071#32, 0xFC0000FF#32, 0x00000700#32, ofDAB .lvSubB⟩,
   ⟨"lv.sub.h", 0x28000072#32, 0xFC0000FF#32, 0x00000700#32, ofDAB .lvSubH⟩,
   ⟨"lv.subs.b", 0x28000073#32, 0xFC0000FF#32, 0x00000700#32, ofDAB .lvSubsB⟩,
   ⟨"lv.subs.h", 0x28000074#32, 0xFC0000FF#32, 0x00000700#32, ofDAB .lvSubsH⟩,
   ⟨"lv.subu.b", 0x28000075#32, 0xFC0000FF#32, 0x00000700#32, ofDAB .lvSubuB⟩,
   ⟨"lv.subu.h", 0x28000076#32, 0xFC0000FF#32, 0x00000700#32, ofDAB .lvSubuH⟩,
   ⟨"lv.subus.b", 0x28000077#32, 0xFC0000FF#32, 0x00000700#32, ofDAB .lvSubusB⟩,
   ⟨"lv.subus.h", 0x28000078#32, 0xFC0000FF#32, 0x00000700#32, ofDAB .lvSubusH⟩,
   ⟨"lv.unpack.b", 0x28000079#32, 0xFC0000FF#32, 0x00000700#32, ofDAB .lvUnpackB⟩,
   ⟨"lv.unpack.h", 0x2800007A#32, 0xFC0000FF#32, 0x00000700#32, ofDAB .lvUnpackH⟩,
   ⟨"lv.xor", 0x2800007B#32, 0xFC0000FF#32, 0x00000700#32, ofDAB .lvXor⟩]

/-- The opcode table: 219 rows. -/
def opcodeTable : List OpcodeRow :=
  opcodeRowsL1 ++ opcodeRowsL2 ++ opcodeRowsLf ++ opcodeRowsLv1 ++ opcodeRowsLv2

/-- What a word is (R115): an instruction; the word of an instruction with reserved bits that
are not zero (R111); an unassigned encoding (R112); or no whole word at all. -/
inductive Decoded where
  | instr (i : Instr)
  | reserved (mnemonic : String)
  | unassigned
  | truncated
  deriving DecidableEq, Repr

/-- The row whose identifying bits the word has. -/
def findRow (w : InsnWord) : Option OpcodeRow :=
  opcodeTable.find? fun r => w &&& r.mask == r.pattern

/-- The decode procedure of R115. Units and `XLEN` play no part in it (R113, R115): each
instruction checks its own availability when it executes. -/
def decodeWord (w : InsnWord) : Decoded :=
  match findRow w with
  | none => .unassigned
  | some r => if w &&& r.reserved == 0#32 then .instr (r.build w) else .reserved r.mnemonic

/-- The word of four bytes, the byte at the lowest address first: big-endian (R76, R103). -/
def wordOfBytes (b0 b1 b2 b3 : Byte) : InsnWord := b0 ++ b1 ++ b2 ++ b3

/-- The four bytes of a word as memory holds them, lowest address first (R76, R103). -/
def bytesOfWord (w : InsnWord) : List Byte :=
  [w.extractLsb' 24 8, w.extractLsb' 16 8, w.extractLsb' 8 8, w.extractLsb' 0 8]

/-- Decode the instruction at the head of any list of bytes. -/
def decode : List Byte → Decoded
  | b0 :: b1 :: b2 :: b3 :: _ => decodeWord (wordOfBytes b0 b1 b2 b3)
  | _ => .truncated

/-- The instruction the decoder reads from the word `w` of `nbits` bits. -/
def decodeTableWord (nbits w : Nat) : Option Instr :=
  match decode (bytesOfWord (BitVec.ofNat 32 (w % 2 ^ nbits))) with
  | .instr i => some i
  | _ => none

/-! The encoder. `put lo v` places a field, and each format of R104 has one function. -/

/-- A word with the field `v` at bit `lo` and zeros elsewhere. -/
def put {n : Nat} (lo : Nat) (v : BitVec n) : InsnWord := v.setWidth 32 <<< lo

def encRRR (s98 : BitVec 2) (s30 : BitVec 4) (rD rA rB : RegNum) : InsnWord :=
  put 26 0x38#6 ||| put 8 s98 ||| put 0 s30 ||| put 21 rD ||| put 16 rA ||| put 11 rB
def encRRRs (s96 s30 : BitVec 4) (rD rA rB : RegNum) : InsnWord :=
  put 26 0x38#6 ||| put 6 s96 ||| put 0 s30 ||| put 21 rD ||| put 16 rA ||| put 11 rB
def encRR (s96 s30 : BitVec 4) (rD rA : RegNum) : InsnWord :=
  put 26 0x38#6 ||| put 6 s96 ||| put 0 s30 ||| put 21 rD ||| put 16 rA
def encRAB (s98 : BitVec 2) (s30 : BitVec 4) (rA rB : RegNum) : InsnWord :=
  put 26 0x38#6 ||| put 8 s98 ||| put 0 s30 ||| put 16 rA ||| put 11 rB
def encMAC (s30 : BitVec 4) (rA rB : RegNum) : InsnWord :=
  put 26 0x31#6 ||| put 0 s30 ||| put 16 rA ||| put 11 rB
def encRI (op : BitVec 6) (rD rA : RegNum) (imm : BitVec 16) : InsnWord :=
  put 26 op ||| put 21 rD ||| put 16 rA ||| put 0 imm
def encRSH (s76 : BitVec 2) (rD rA : RegNum) (l : BitVec 6) : InsnWord :=
  put 26 0x2E#6 ||| put 6 s76 ||| put 21 rD ||| put 16 rA ||| put 0 l
def encSF (cond : BitVec 5) (rA rB : RegNum) : InsnWord :=
  put 26 0x39#6 ||| put 21 cond ||| put 16 rA ||| put 11 rB
def encSFI (cond : BitVec 5) (rA : RegNum) (imm : BitVec 16) : InsnWord :=
  put 26 0x2F#6 ||| put 21 cond ||| put 16 rA ||| put 0 imm
def encST (op : BitVec 6) (rA rB : RegNum) (imm : BitVec 16) : InsnWord :=
  put 26 op ||| put 16 rA ||| put 11 rB ||| put 21 (imm.extractLsb' 11 5) ||| put 0 (imm.extractLsb' 0 11)
def encAI (rA : RegNum) (imm : BitVec 16) : InsnWord :=
  put 26 0x13#6 ||| put 16 rA ||| put 0 imm
def encHI (rD : RegNum) (imm : BitVec 16) : InsnWord :=
  put 26 0x06#6 ||| put 21 rD ||| put 0 imm
def encRC (rD : RegNum) : InsnWord :=
  put 26 0x06#6 ||| put 16 0x1#1 ||| put 21 rD
def encK (top : BitVec 16) (imm : BitVec 16) : InsnWord := put 16 top ||| put 0 imm
def encSYNC (s : BitVec 3) : InsnWord := put 26 0x08#6 ||| put 23 s
def encZ : InsnWord := put 26 0x09#6
def encJ (op : BitVec 6) (n : BitVec 26) : InsnWord := put 26 op ||| put 0 n
def encJR (op : BitVec 6) (rB : RegNum) : InsnWord := put 26 op ||| put 11 rB
def encCUST (op : BitVec 6) (custom : BitVec 26) : InsnWord := put 26 op ||| put 0 custom
def encCUST5 (rD rA rB : RegNum) (l : BitVec 6) (k : BitVec 5) : InsnWord :=
  put 26 0x3C#6 ||| put 21 rD ||| put 16 rA ||| put 11 rB ||| put 5 l ||| put 0 k
def encF3 (s70 : BitVec 8) (rD rA rB : RegNum) : InsnWord :=
  put 26 0x32#6 ||| put 0 s70 ||| put 21 rD ||| put 16 rA ||| put 11 rB
def encF2 (s70 : BitVec 8) (rD rA : RegNum) : InsnWord :=
  put 26 0x32#6 ||| put 0 s70 ||| put 21 rD ||| put 16 rA
def encFC (s70 : BitVec 8) (rA rB : RegNum) : InsnWord :=
  put 26 0x32#6 ||| put 0 s70 ||| put 16 rA ||| put 11 rB
def encFCUST (s74 : BitVec 4) (rA rB : RegNum) (custom : BitVec 12) : InsnWord :=
  put 26 0x32#6 ||| put 4 s74 ||| put 16 rA ||| put 11 rB ||| put 21 (custom.extractLsb' 7 5) |||
    put 8 (custom.extractLsb' 4 3) ||| put 0 (custom.extractLsb' 0 4)
def encV3 (s70 : BitVec 8) (rD rA rB : RegNum) : InsnWord :=
  put 26 0x0A#6 ||| put 0 s70 ||| put 21 rD ||| put 16 rA ||| put 11 rB
def encVCUST (s74 : BitVec 4) (hi : BitVec 18) (lo : BitVec 4) : InsnWord :=
  put 26 0x0A#6 ||| put 4 s74 ||| put 8 hi ||| put 0 lo

/-- The word of an instruction (R103 to R110), with every reserved bit zero. -/
def encode (i : Instr) : InsnWord :=
  match i with
  | .lAdd rD rA rB => encRRR 0x0#2 0x0#4 rD rA rB
  | .lAddc rD rA rB => encRRR 0x0#2 0x1#4 rD rA rB
  | .lAddi rD rA imm => encRI 0x27#6 rD rA imm
  | .lAddic rD rA imm => encRI 0x28#6 rD rA imm
  | .lAnd rD rA rB => encRRR 0x0#2 0x3#4 rD rA rB
  | .lAndi rD rA imm => encRI 0x29#6 rD rA imm
  | .lBf n => encJ 0x4#6 n
  | .lBnf n => encJ 0x3#6 n
  | .lCmov rD rA rB => encRRR 0x0#2 0xE#4 rD rA rB
  | .lCsync => encSYNC 0x6#3
  | .lCust1 custom => encCUST 0x1C#6 custom
  | .lCust2 custom => encCUST 0x1D#6 custom
  | .lCust3 custom => encCUST 0x1E#6 custom
  | .lCust4 custom => encCUST 0x1F#6 custom
  | .lCust5 rD rA rB l k => encCUST5 rD rA rB l k
  | .lCust6 custom => encCUST 0x3D#6 custom
  | .lCust7 custom => encCUST 0x3E#6 custom
  | .lCust8 custom => encCUST 0x3F#6 custom
  | .lDiv rD rA rB => encRRR 0x3#2 0x9#4 rD rA rB
  | .lDivu rD rA rB => encRRR 0x3#2 0xA#4 rD rA rB
  | .lExtbs rD rA => encRR 0x1#4 0xC#4 rD rA
  | .lExtbz rD rA => encRR 0x3#4 0xC#4 rD rA
  | .lExths rD rA => encRR 0x0#4 0xC#4 rD rA
  | .lExthz rD rA => encRR 0x2#4 0xC#4 rD rA
  | .lExtws rD rA => encRR 0x0#4 0xD#4 rD rA
  | .lExtwz rD rA => encRR 0x1#4 0xD#4 rD rA
  | .lFf1 rD rA rB => encRRR 0x0#2 0xF#4 rD rA rB
  | .lFl1 rD rA rB => encRRR 0x1#2 0xF#4 rD rA rB
  | .lJ n => encJ 0x0#6 n
  | .lJal n => encJ 0x1#6 n
  | .lJalr rB => encJR 0x12#6 rB
  | .lJr rB => encJR 0x11#6 rB
  | .lLbs rD rA imm => encRI 0x24#6 rD rA imm
  | .lLbz rD rA imm => encRI 0x23#6 rD rA imm
  | .lLd rD rA imm => encRI 0x20#6 rD rA imm
  | .lLhs rD rA imm => encRI 0x26#6 rD rA imm
  | .lLhz rD rA imm => encRI 0x25#6 rD rA imm
  | .lLwa rD rA imm => encRI 0x1B#6 rD rA imm
  | .lLws rD rA imm => encRI 0x22#6 rD rA imm
  | .lLwz rD rA imm => encRI 0x21#6 rD rA imm
  | .lMac rA rB => encMAC 0x1#4 rA rB
  | .lMaci rA imm => encAI rA imm
  | .lMacrc rD => encRC rD
  | .lMacu rA rB => encMAC 0x3#4 rA rB
  | .lMfspr rD rA imm => encRI 0x2D#6 rD rA imm
  | .lMovhi rD imm => encHI rD imm
  | .lMsb rA rB => encMAC 0x2#4 rA rB
  | .lMsbu rA rB => encMAC 0x4#4 rA rB
  | .lMsync => encSYNC 0x4#3
  | .lMtspr rA rB imm => encST 0x30#6 rA rB imm
  | .lMul rD rA rB => encRRR 0x3#2 0x6#4 rD rA rB
  | .lMuld rA rB => encRAB 0x3#2 0x7#4 rA rB
  | .lMuldu rA rB => encRAB 0x3#2 0xC#4 rA rB
  | .lMuli rD rA imm => encRI 0x2C#6 rD rA imm
  | .lMulu rD rA rB => encRRR 0x3#2 0xB#4 rD rA rB
  | .lNop imm => encK 0x1500#16 imm
  | .lOr rD rA rB => encRRR 0x0#2 0x4#4 rD rA rB
  | .lOri rD rA imm => encRI 0x2A#6 rD rA imm
  | .lPsync => encSYNC 0x5#3
  | .lRfe => encZ
  | .lRor rD rA rB => encRRRs 0x3#4 0x8#4 rD rA rB
  | .lRori rD rA l => encRSH 0x3#2 rD rA l
  | .lSb rA rB imm => encST 0x36#6 rA rB imm
  | .lSd rA rB imm => encST 0x34#6 rA rB imm
  | .lSfeq rA rB => encSF 0x0#5 rA rB
  | .lSfeqi rA imm => encSFI 0x0#5 rA imm
  | .lSfges rA rB => encSF 0xB#5 rA rB
  | .lSfgesi rA imm => encSFI 0xB#5 rA imm
  | .lSfgeu rA rB => encSF 0x3#5 rA rB
  | .lSfgeui rA imm => encSFI 0x3#5 rA imm
  | .lSfgts rA rB => encSF 0xA#5 rA rB
  | .lSfgtsi rA imm => encSFI 0xA#5 rA imm
  | .lSfgtu rA rB => encSF 0x2#5 rA rB
  | .lSfgtui rA imm => encSFI 0x2#5 rA imm
  | .lSfles rA rB => encSF 0xD#5 rA rB
  | .lSflesi rA imm => encSFI 0xD#5 rA imm
  | .lSfleu rA rB => encSF 0x5#5 rA rB
  | .lSfleui rA imm => encSFI 0x5#5 rA imm
  | .lSflts rA rB => encSF 0xC#5 rA rB
  | .lSfltsi rA imm => encSFI 0xC#5 rA imm
  | .lSfltu rA rB => encSF 0x4#5 rA rB
  | .lSfltui rA imm => encSFI 0x4#5 rA imm
  | .lSfne rA rB => encSF 0x1#5 rA rB
  | .lSfnei rA imm => encSFI 0x1#5 rA imm
  | .lSh rA rB imm => encST 0x37#6 rA rB imm
  | .lSll rD rA rB => encRRRs 0x0#4 0x8#4 rD rA rB
  | .lSlli rD rA l => encRSH 0x0#2 rD rA l
  | .lSra rD rA rB => encRRRs 0x2#4 0x8#4 rD rA rB
  | .lSrai rD rA l => encRSH 0x2#2 rD rA l
  | .lSrl rD rA rB => encRRRs 0x1#4 0x8#4 rD rA rB
  | .lSrli rD rA l => encRSH 0x1#2 rD rA l
  | .lSub rD rA rB => encRRR 0x0#2 0x2#4 rD rA rB
  | .lSw rA rB imm => encST 0x35#6 rA rB imm
  | .lSwa rA rB imm => encST 0x33#6 rA rB imm
  | .lSys imm => encK 0x2000#16 imm
  | .lTrap imm => encK 0x2100#16 imm
  | .lXor rD rA rB => encRRR 0x0#2 0x5#4 rD rA rB
  | .lXori rD rA imm => encRI 0x2B#6 rD rA imm
  | .lfAddD rD rA rB => encF3 0x10#8 rD rA rB
  | .lfAddS rD rA rB => encF3 0x0#8 rD rA rB
  | .lfCust1D rA rB custom => encFCUST 0xE#4 rA rB custom
  | .lfCust1S rA rB custom => encFCUST 0xD#4 rA rB custom
  | .lfDivD rD rA rB => encF3 0x13#8 rD rA rB
  | .lfDivS rD rA rB => encF3 0x3#8 rD rA rB
  | .lfFtoiD rD rA => encF2 0x15#8 rD rA
  | .lfFtoiS rD rA => encF2 0x5#8 rD rA
  | .lfItofD rD rA => encF2 0x14#8 rD rA
  | .lfItofS rD rA => encF2 0x4#8 rD rA
  | .lfMaddD rD rA rB => encF3 0x17#8 rD rA rB
  | .lfMaddS rD rA rB => encF3 0x7#8 rD rA rB
  | .lfMulD rD rA rB => encF3 0x12#8 rD rA rB
  | .lfMulS rD rA rB => encF3 0x2#8 rD rA rB
  | .lfRemD rD rA rB => encF3 0x16#8 rD rA rB
  | .lfRemS rD rA rB => encF3 0x6#8 rD rA rB
  | .lfSfeqD rA rB => encFC 0x18#8 rA rB
  | .lfSfeqS rA rB => encFC 0x8#8 rA rB
  | .lfSfgeD rA rB => encFC 0x1B#8 rA rB
  | .lfSfgeS rA rB => encFC 0xB#8 rA rB
  | .lfSfgtD rA rB => encFC 0x1A#8 rA rB
  | .lfSfgtS rA rB => encFC 0xA#8 rA rB
  | .lfSfleD rA rB => encFC 0x1D#8 rA rB
  | .lfSfleS rA rB => encFC 0xD#8 rA rB
  | .lfSfltD rA rB => encFC 0x1C#8 rA rB
  | .lfSfltS rA rB => encFC 0xC#8 rA rB
  | .lfSfneD rA rB => encFC 0x19#8 rA rB
  | .lfSfneS rA rB => encFC 0x9#8 rA rB
  | .lfSubD rD rA rB => encF3 0x11#8 rD rA rB
  | .lfSubS rD rA rB => encF3 0x1#8 rD rA rB
  | .lvAddB rD rA rB => encV3 0x30#8 rD rA rB
  | .lvAddH rD rA rB => encV3 0x31#8 rD rA rB
  | .lvAddsB rD rA rB => encV3 0x32#8 rD rA rB
  | .lvAddsH rD rA rB => encV3 0x33#8 rD rA rB
  | .lvAdduB rD rA rB => encV3 0x34#8 rD rA rB
  | .lvAdduH rD rA rB => encV3 0x35#8 rD rA rB
  | .lvAddusB rD rA rB => encV3 0x36#8 rD rA rB
  | .lvAddusH rD rA rB => encV3 0x37#8 rD rA rB
  | .lvAllEqB rD rA rB => encV3 0x10#8 rD rA rB
  | .lvAllEqH rD rA rB => encV3 0x11#8 rD rA rB
  | .lvAllGeB rD rA rB => encV3 0x12#8 rD rA rB
  | .lvAllGeH rD rA rB => encV3 0x13#8 rD rA rB
  | .lvAllGtB rD rA rB => encV3 0x14#8 rD rA rB
  | .lvAllGtH rD rA rB => encV3 0x15#8 rD rA rB
  | .lvAllLeB rD rA rB => encV3 0x16#8 rD rA rB
  | .lvAllLeH rD rA rB => encV3 0x17#8 rD rA rB
  | .lvAllLtB rD rA rB => encV3 0x18#8 rD rA rB
  | .lvAllLtH rD rA rB => encV3 0x19#8 rD rA rB
  | .lvAllNeB rD rA rB => encV3 0x1A#8 rD rA rB
  | .lvAllNeH rD rA rB => encV3 0x1B#8 rD rA rB
  | .lvAnd rD rA rB => encV3 0x38#8 rD rA rB
  | .lvAnyEqB rD rA rB => encV3 0x20#8 rD rA rB
  | .lvAnyEqH rD rA rB => encV3 0x21#8 rD rA rB
  | .lvAnyGeB rD rA rB => encV3 0x22#8 rD rA rB
  | .lvAnyGeH rD rA rB => encV3 0x23#8 rD rA rB
  | .lvAnyGtB rD rA rB => encV3 0x24#8 rD rA rB
  | .lvAnyGtH rD rA rB => encV3 0x25#8 rD rA rB
  | .lvAnyLeB rD rA rB => encV3 0x26#8 rD rA rB
  | .lvAnyLeH rD rA rB => encV3 0x27#8 rD rA rB
  | .lvAnyLtB rD rA rB => encV3 0x28#8 rD rA rB
  | .lvAnyLtH rD rA rB => encV3 0x29#8 rD rA rB
  | .lvAnyNeB rD rA rB => encV3 0x2A#8 rD rA rB
  | .lvAnyNeH rD rA rB => encV3 0x2B#8 rD rA rB
  | .lvAvgB rD rA rB => encV3 0x39#8 rD rA rB
  | .lvAvgH rD rA rB => encV3 0x3A#8 rD rA rB
  | .lvCmpEqB rD rA rB => encV3 0x40#8 rD rA rB
  | .lvCmpEqH rD rA rB => encV3 0x41#8 rD rA rB
  | .lvCmpGeB rD rA rB => encV3 0x42#8 rD rA rB
  | .lvCmpGeH rD rA rB => encV3 0x43#8 rD rA rB
  | .lvCmpGtB rD rA rB => encV3 0x44#8 rD rA rB
  | .lvCmpGtH rD rA rB => encV3 0x45#8 rD rA rB
  | .lvCmpLeB rD rA rB => encV3 0x46#8 rD rA rB
  | .lvCmpLeH rD rA rB => encV3 0x47#8 rD rA rB
  | .lvCmpLtB rD rA rB => encV3 0x48#8 rD rA rB
  | .lvCmpLtH rD rA rB => encV3 0x49#8 rD rA rB
  | .lvCmpNeB rD rA rB => encV3 0x4A#8 rD rA rB
  | .lvCmpNeH rD rA rB => encV3 0x4B#8 rD rA rB
  | .lvCust1 hi lo => encVCUST 0xC#4 hi lo
  | .lvCust2 hi lo => encVCUST 0xD#4 hi lo
  | .lvCust3 hi lo => encVCUST 0xE#4 hi lo
  | .lvCust4 hi lo => encVCUST 0xF#4 hi lo
  | .lvMaddsH rD rA rB => encV3 0x54#8 rD rA rB
  | .lvMaxB rD rA rB => encV3 0x55#8 rD rA rB
  | .lvMaxH rD rA rB => encV3 0x56#8 rD rA rB
  | .lvMergeB rD rA rB => encV3 0x57#8 rD rA rB
  | .lvMergeH rD rA rB => encV3 0x58#8 rD rA rB
  | .lvMinB rD rA rB => encV3 0x59#8 rD rA rB
  | .lvMinH rD rA rB => encV3 0x5A#8 rD rA rB
  | .lvMsubsH rD rA rB => encV3 0x5B#8 rD rA rB
  | .lvMulsH rD rA rB => encV3 0x5C#8 rD rA rB
  | .lvNand rD rA rB => encV3 0x5D#8 rD rA rB
  | .lvNor rD rA rB => encV3 0x5E#8 rD rA rB
  | .lvOr rD rA rB => encV3 0x5F#8 rD rA rB
  | .lvPackB rD rA rB => encV3 0x60#8 rD rA rB
  | .lvPackH rD rA rB => encV3 0x61#8 rD rA rB
  | .lvPacksB rD rA rB => encV3 0x62#8 rD rA rB
  | .lvPacksH rD rA rB => encV3 0x63#8 rD rA rB
  | .lvPackusB rD rA rB => encV3 0x64#8 rD rA rB
  | .lvPackusH rD rA rB => encV3 0x65#8 rD rA rB
  | .lvPermN rD rA rB => encV3 0x66#8 rD rA rB
  | .lvRlB rD rA rB => encV3 0x67#8 rD rA rB
  | .lvRlH rD rA rB => encV3 0x68#8 rD rA rB
  | .lvSll rD rA rB => encV3 0x6B#8 rD rA rB
  | .lvSllB rD rA rB => encV3 0x69#8 rD rA rB
  | .lvSllH rD rA rB => encV3 0x6A#8 rD rA rB
  | .lvSraB rD rA rB => encV3 0x6E#8 rD rA rB
  | .lvSraH rD rA rB => encV3 0x6F#8 rD rA rB
  | .lvSrl rD rA rB => encV3 0x70#8 rD rA rB
  | .lvSrlB rD rA rB => encV3 0x6C#8 rD rA rB
  | .lvSrlH rD rA rB => encV3 0x6D#8 rD rA rB
  | .lvSubB rD rA rB => encV3 0x71#8 rD rA rB
  | .lvSubH rD rA rB => encV3 0x72#8 rD rA rB
  | .lvSubsB rD rA rB => encV3 0x73#8 rD rA rB
  | .lvSubsH rD rA rB => encV3 0x74#8 rD rA rB
  | .lvSubuB rD rA rB => encV3 0x75#8 rD rA rB
  | .lvSubuH rD rA rB => encV3 0x76#8 rD rA rB
  | .lvSubusB rD rA rB => encV3 0x77#8 rD rA rB
  | .lvSubusH rD rA rB => encV3 0x78#8 rD rA rB
  | .lvUnpackB rD rA rB => encV3 0x79#8 rD rA rB
  | .lvUnpackH rD rA rB => encV3 0x7A#8 rD rA rB
  | .lvXor rD rA rB => encV3 0x7B#8 rD rA rB

/-- The bytes of an instruction as memory holds them. -/
def encodeBytes (i : Instr) : List Byte := bytesOfWord (encode i)

end Sys2Proof
end

