-- ==== Sys2Proof/Config.lean ====
section
/-! DEFINITION. The implementation parameters of R5 (fixed for a whole run, R6), and the free
values: the results the spec calls "any value" (R143, R144, R300, U1, U2, U12). -/

namespace Sys2Proof

/-- `XLEN` of R5. -/
inductive XLen where
  | x32
  | x64
  deriving DecidableEq, Repr

/-- The number of bits of `XLEN`. -/
def XLen.bits : XLen → Nat
  | .x32 => 32
  | .x64 => 64

/-- `LV_AVG` of R5 (D30). -/
inductive AvgKind where
  | exact
  | wrap
  | signed
  deriving DecidableEq, Repr

/-- The treatment of an instruction whose accumulator the spec leaves undefined (`LV_VMAC`,
`FP_MADD`; D32): `refuse` and `illegal` are the spec's two values; `free` is the model's own
third value, which executes the instruction with free results (log entry 20). -/
inductive UndefinedAccPolicy where
  | refuse
  | illegal
  | free
  deriving DecidableEq, Repr

/-- `LV_WHOLE_SHIFT` of R5 (D33). -/
inductive WholeShiftPolicy where
  | line
  | refuse
  | illegal
  deriving DecidableEq, Repr

/-- `LV_MERGE` of R5 (C10). -/
inductive MergeKind where
  | line
  | interleave
  deriving DecidableEq, Repr

/-- `FP` of R5: the record of R300 with the members that rule gives as default, or the record number `k`, of
whose members nothing is known (R300: "keeps the members abstract"; log entry 32). -/
inductive FpRecord where
  | ieee
  | other (k : Nat)
  deriving DecidableEq, Repr

/-- The members of `FP` that deliver a result and a flag set (R300). -/
inductive FpOp where
  | add
  | sub
  | mul
  | div
  | rem
  | itof
  | ftoi
  deriving DecidableEq, Repr

/-- The outcomes of `FP.cmp` (R300). -/
inductive FpOrder where
  | lt
  | eq
  | gt
  | unordered
  deriving DecidableEq, Repr, Inhabited

/-- `FP_REM_KIND` of R5. -/
inductive RemKind where
  | ieee
  | trunc
  deriving DecidableEq, Repr

/-- Where execution resumes after an exception outside a delay slot (R508): the instruction after the
one that raised it, or that one again. -/
inductive Resume where
  | next
  | self
  deriving DecidableEq, Repr

/-- One row of the exception table: the vector offset (R500) and the resume address (R508). -/
structure ExcEntry where
  offset : BitVec 32
  resume : Resume
  deriving DecidableEq, Repr

/-- The exception table, which R508 and R517 ask for as configuration data: a row for each exception of
R500. The row of the floating-point exception holds `EPCR_FP` of R5. -/
structure ExcTable where
  reset              : ExcEntry
  busError           : ExcEntry
  dataPageFault      : ExcEntry
  insnPageFault      : ExcEntry
  tickTimer          : ExcEntry
  alignment          : ExcEntry
  illegalInstruction : ExcEntry
  externalInterrupt  : ExcEntry
  dtlbMiss           : ExcEntry
  itlbMiss           : ExcEntry
  range              : ExcEntry
  systemCall         : ExcEntry
  floatingPoint      : ExcEntry
  trap               : ExcEntry
  deriving DecidableEq, Repr

/-- The two readings of `raise` that R517 offers: exception entry (R506 to R508), or a fault that ends
the run. -/
inductive ExcReading where
  | taken
  | fault
  deriving DecidableEq, Repr

/-- `USER_SPR_POLICY` of R5 (R288, D10). -/
inductive UserSprPolicy where
  | illegal
  | ignore
  | refuse
  deriving DecidableEq, Repr

/-- What a custom word does (R114, R272): the spec's `refuse` and `illegal`; the others are meanings an
implementation may define: to advance; to write to `x[w[25:21]]` an unknown function of the word and of
the registers its bits 20:16 and 15:11 name; to do what the unknown function number `k` of the word and of
the machine's state says (log entry 19). -/
inductive CustomEffect where
  | refuse
  | illegal
  | nop
  | compute
  | function (k : Nat)
  deriving DecidableEq, Repr

/-- One thing a custom instruction does: a write of a register (cut to `XLEN` bits), of a flag of SR, of the
accumulator, of FPCSR's flags (ORed in, R302), of a register pair without an SPR address (R57, R58), of a
special register; the checks of a load, or a store, of `2 ^ size` bytes. -/
inductive CustomWrite where
  | reg (r : RegNum) (v : BitVec 64)
  | flagF (b : Bool)
  | flagCY (b : Bool)
  | flagOV (b : Bool)
  | acc (v : BitVec 64)
  | fpFlags (fl : BitVec 9)
  | fpmadd (v : BitVec 64)
  | vmac (hi lo : BitVec 64)
  | spr (a : BitVec 16) (v : BitVec 32)
  | load (ea : BitVec 64) (size : Fin 4)
  | store (ea : BitVec 64) (size : Fin 4) (v : BitVec 64)
  deriving DecidableEq, Repr

/-- The exceptions an instruction can raise that carry no address of an access (R500). -/
inductive CustomException where
  | illegalInstruction
  | range
  | systemCall
  | floatingPoint
  | trap
  deriving DecidableEq, Repr

/-- How a custom instruction ends. -/
inductive CustomEnd where
  | advance
  | jump (target : BitVec 64)
  | raise (x : CustomException)
  deriving DecidableEq, Repr

/-- A value of `CustomSem` (R114, log entry 19): the program is refused, or these things are done, in this
order, and then the instruction ends. -/
inductive CustomAction where
  | refuse
  | run (writes : List CustomWrite) (ending : CustomEnd)
  deriving DecidableEq, Repr, Inhabited

/-- One case of `CustomSem`: the effect of the custom words that match. -/
structure CustomRule where
  mask    : InsnWord
  pattern : InsnWord
  effect  : CustomEffect
  deriving DecidableEq, Repr

/-- The kind of an access (R79, R81). -/
inductive AccessKind where
  | load
  | store
  | fetch
  deriving DecidableEq, Repr

/-- One stretch of physical memory the platform answers at (`BusOK`, R81, D22), with the widths in
bytes it answers for each kind of access. -/
structure Region where
  base    : Nat
  size    : Nat
  loads   : List Nat
  stores  : List Nat
  fetches : List Nat
  deriving DecidableEq, Repr

/-- One page of `Translate` for one kind of access (R79, R80): where it is found and which mode may
use it. -/
structure Page where
  va         : Nat
  size       : Nat
  pa         : Nat
  supervisor : Bool
  user       : Bool
  deriving DecidableEq, Repr

/-- The parameters of R5, with those the model adds; fixed for a run (R6). -/
structure Config where
  xlen           : XLen
  /-- `CPUCFGR[ND]`: no delay slot (R26, R48). -/
  nd             : Bool
  /-- AECR and AESR present (R45, R46). -/
  aecsrp         : Bool
  /-- What AECR is taken to be when it is absent (R503, D12). -/
  aecrAbsentMask : BitVec 7
  /-- EVBAR present (R44). -/
  evbarp         : Bool
  /-- The reset value of EVBAR[31:13] (R44, R62). -/
  evbarReset     : BitVec 19
  /-- AVR, ISR0-7 and VR2 present (R43, R47, R41). -/
  avrp           : Bool
  isrp           : Bool
  uvrp           : Bool
  /-- The identification constants (R41 to R43, R47 to R49). -/
  vrValue        : BitVec 32
  vr2Cpuid       : BitVec 8
  vr2Ver         : BitVec 24
  avrValue       : BitVec 32
  uprValue       : BitVec 32
  cpucfgrOther   : BitVec 32
  isrValue       : Vector (BitVec 32) 8
  /-- The optional units (R113). -/
  hasMul         : Bool
  hasDiv         : Bool
  hasMac         : Bool
  hasExt         : Bool
  hasCmov        : Bool
  hasFf1         : Bool
  hasRor         : Bool
  hasLwa         : Bool
  hasFpx32       : Bool
  hasFpx64       : Bool
  hasVdx64       : Bool
  /-- The readings of the `lv.` family (R353, R354, R388, R430, R433, R437, R451, R456). -/
  lvCmpSigned    : Bool
  lvAvg          : AvgKind
  lvSetsF        : Bool
  lvVmac         : UndefinedAccPolicy
  lvWholeShift   : WholeShiftPolicy
  lvMerge        : MergeKind
  /-- The `FP` record (R300). -/
  fp             : FpRecord
  /-- The readings of the `lf.` family (R300, R302, R313, R317). -/
  fpMadd         : UndefinedAccPolicy
  fpRemKind      : RemKind
  fpCmpFlags     : Bool
  fpClassFlags   : Bool
  /-- Whether tininess is detected after rounding: IEEE 754 lets an implementation choose
  (log entry 17). -/
  fpTinyAfter    : Bool
  userSprPolicy  : UserSprPolicy
  /-- `CustomSem`, the first case that matches deciding; a word that none matches is refused (R114). -/
  customSem      : List CustomRule
  /-- The bits of `lf.cust1.*` and of `lv.cust1` to `lv.cust4` that must be zero: by default those R104
  shows as reserved; R305, R306 and R402 to R405 let an implementation use them, so that a configuration
  may clear the mask (log entry 29). -/
  fcustReserved  : InsnWord
  vcustReserved  : InsnWord
  /-- The exception table (R500, R508, R517). -/
  exceptions     : ExcTable
  /-- What `raise` is (R517; log entry 31). -/
  excReading     : ExcReading
  /-- A fetch of a location stored to since the last `l.psync` or `l.csync` is refused (R90). -/
  fetchStale     : Bool
  /-- `SR[EPH]` after reset (R62). -/
  resetEph       : Bool
  /-- Whether IllegalInstruction writes the pc to EEAR (R500, R509; log entry 11). -/
  illegalEear    : Bool
  /-- `SprImplemented` (R38): the addresses at which a register is seen, or the default of D9, which
  leaves out NPC, PPC and the aliases of the general registers (R54, R55). -/
  sprSet         : Option (List Nat)
  /-- Whether `Translate` is supplied: then `SR[DME]` and `SR[IME]` may be set and translate by
  the pages below, a list for each kind of access (R79, U23). -/
  hasMmu         : Bool
  loadPages      : List Page
  storePages     : List Page
  fetchPages     : List Page
  /-- Where the platform answers (`BusOK`, R81). -/
  regions        : List Region
  deriving DecidableEq, Repr

/-- The `i`-th free value of a run: what the spec calls "any value". It has no body, so nothing
can be proved of it; `State.draws` counts the values a run has used (log entry 4). -/
opaque Config.freeWord : Nat → BitVec 64

/-- What a custom word under `compute` makes of two registers: the implementation's function, of which
nothing is known (R114, log entry 19). -/
opaque Config.customResult : InsnWord → BitVec 64 → BitVec 64 → BitVec 64

/-- The members of the `FP` record number `k` that deliver a result: result and flag set, from the member, the
width of the format, FPCSR and the operands (R300, log entry 32). -/
opaque Config.fpOperation (k : Nat) (o : FpOp) (width : Nat) (fpcsr : BitVec 32) (a b : BitVec 64) : BitVec 64 × BitVec 9

/-- `FP.cmp` of the record number `k` (R300, log entry 32). -/
opaque Config.fpOrder (k width : Nat) (a b : BitVec 64) : FpOrder

end Sys2Proof
end

