-- ==== Sys2Proof/Machine/Defaults.lean ====
section
/-! DEFINITION. The default configuration of R5, a configuration with every unit present, and
the values reset gives (R62, R560). They stand here so that a later repair can mend them. -/

namespace Sys2Proof.Machine

/-- The exception table of R500 and R508, with the default `EPCR_FP = next` of R5. -/
def defaultExceptions : ExcTable where
  reset              := ⟨0x100#32, .self⟩
  busError           := ⟨0x200#32, .self⟩
  dataPageFault      := ⟨0x300#32, .self⟩
  insnPageFault      := ⟨0x400#32, .self⟩
  tickTimer          := ⟨0x500#32, .self⟩
  alignment          := ⟨0x600#32, .self⟩
  illegalInstruction := ⟨0x700#32, .self⟩
  externalInterrupt  := ⟨0x800#32, .self⟩
  dtlbMiss           := ⟨0x900#32, .self⟩
  itlbMiss           := ⟨0xA00#32, .self⟩
  range              := ⟨0xB00#32, .self⟩
  systemCall         := ⟨0xC00#32, .next⟩
  floatingPoint      := ⟨0xD00#32, .next⟩
  trap               := ⟨0xE00#32, .self⟩

/-- The `-` bits of the formats `FCUST` and `VCUST` (R104, R109, R110). -/
def fcustDashes : InsnWord := 0x03E0070F#32
def vcustDashes : InsnWord := 0x03FFFF0F#32

/-- The default value of every parameter of R5. The identification constants, which the spec
leaves unconstrained, are zero (log entry 5). -/
def defaultConfig : Config where
  xlen           := .x32
  nd             := false
  aecsrp         := true
  aecrAbsentMask := 0x7F#7
  evbarp         := false
  evbarReset     := 0#19
  avrp           := true
  isrp           := false
  uvrp           := true
  vrValue        := 0#32
  vr2Cpuid       := 0#8
  vr2Ver         := 0#24
  avrValue       := 0#32
  uprValue       := 0#32
  cpucfgrOther   := 0#32
  isrValue       := Vector.replicate 8 0#32
  hasMul         := true
  hasDiv         := true
  hasMac         := true
  hasExt         := true
  hasCmov        := true
  hasFf1         := true
  hasRor         := true
  hasLwa         := true
  hasFpx32       := false
  hasFpx64       := false
  hasVdx64       := false
  lvCmpSigned    := true
  lvAvg          := .exact
  lvSetsF        := false
  lvVmac         := .refuse
  lvWholeShift   := .line
  lvMerge        := .line
  fp             := .ieee
  fpMadd         := .refuse
  fpRemKind      := .ieee
  fpCmpFlags     := false
  fpClassFlags   := true
  fpTinyAfter    := false
  userSprPolicy  := .illegal
  customSem      := []
  fcustReserved  := fcustDashes
  vcustReserved  := vcustDashes
  exceptions     := defaultExceptions
  excReading     := .taken
  fetchStale     := false
  resetEph       := false
  illegalEear    := true
  sprSet         := none
  hasMmu         := false
  loadPages      := []
  storePages     := []
  fetchPages     := []
  regions        := [⟨0, 2 ^ 64, [1, 2, 4, 8], [1, 2, 4, 8], [4]⟩]

/-- `XLEN = 64` with every unit present, otherwise as the default. -/
def fullConfig : Config :=
  { defaultConfig with xlen := .x64, hasFpx32 := true, hasFpx64 := true, hasVdx64 := true }

/-- EVBAR after reset: `EVBAR_RESET` in bits 31:13, zero when the register is absent (R44, R62). -/
def resetEvbar (c : Config) : BitVec 32 := if c.evbarp then c.evbarReset ++ 0#13 else 0#32

/-- SR after reset: `SM = FO = 1`, `EPH = RESET_EPH`, all else zero (R62, R560). -/
def resetSr (c : Config) : BitVec 32 := if c.resetEph then 0x0000C001#32 else 0x00008001#32

/-- The pc after reset: the reset vector (R62, R506, R560). -/
def resetPc (c : Config) : BitVec 64 :=
  ((if c.resetEph then 0xF0000000#32 else 0#32) ||| resetEvbar c ||| c.exceptions.reset.offset).setWidth 64

/-- What a general register, EPCR, ESR, EEAR, MACHI, MACLO, FPMADDHI, FPMADDLO, VMACHI and VMACLO
hold after reset: R62 leaves them unspecified, and the model takes zero (log entry 1). -/
def unspecifiedReset {n : Nat} : BitVec n := 0#n

end Sys2Proof.Machine
end

