-- ==== Sys2Proof/Machine/State.lean ====
section
/-! DEFINITION. The state of the machine, as plain data, the reasons a step can end otherwise
than in a next state, and the state after reset. -/

namespace Sys2Proof.Machine

/-- What the world outside the core does before one step (R512, `IrqPending` of R515, R92, R88): the
reset input, an external interrupt or a tick pending, a reservation lost for no reason the program
sees, and bytes another agent writes. -/
structure Input where
  reset    : Bool
  ext      : Bool
  tick     : Bool
  loseResv : Bool
  writes   : List Host.Cell
  deriving DecidableEq, Repr

/-- Nothing happens: what every step finds when no input is left (R515, D23: "never"). -/
def Input.none : Input := ⟨false, false, false, false, []⟩

/-- The whole state of the machine. Registers of `XLEN` bits are held in 64; at `XLEN = 32` their
high half is zero. -/
structure State where
  /-- The implementation's parameters, fixed for the run (R5, R6). -/
  cfg      : Config
  /-- The general registers `x[0]` to `x[31]` (R20). -/
  regs     : Vector (BitVec 64) 32
  /-- The address of the instruction being executed (R25). -/
  pc       : BitVec 64
  /-- The previous pc, read as the SPR PPC where that is implemented (R55). -/
  ppc      : BitVec 64
  /-- The pending jump target: `some t` while the instruction at `pc` is a delay slot (R26). -/
  ds       : Option (BitVec 64)
  /-- The supervision register (R28). -/
  sr       : BitVec 32
  /-- The registers an exception saves into (R50, R51, R52). -/
  epcr     : BitVec 64
  esr      : BitVec 32
  eear     : BitVec 64
  /-- The exception vector base (R44). -/
  evbar    : BitVec 32
  /-- Arithmetic exception control and status (R45, R46). -/
  aecr     : BitVec 32
  aesr     : BitVec 32
  /-- The accumulator of the MAC unit (R53). -/
  machi    : BitVec 32
  maclo    : BitVec 32
  /-- Floating-point control and status (R56). -/
  fpcsr    : BitVec 32
  /-- The accumulator of `lf.madd` (R57). -/
  fpmaddhi : BitVec 32
  fpmaddlo : BitVec 32
  /-- The accumulator of `lv.madds.h` and `lv.msubs.h` (R58). -/
  vmachi   : BitVec 64
  vmaclo   : BitVec 64
  /-- The physical address of the reserved word, if one is held (R59, R86). -/
  resv     : Option Nat
  /-- Memory: physical address and byte, addresses strictly rising, no byte equal to what an
  unlisted address reads as (R70). -/
  mem      : List Host.Cell
  /-- The physical addresses stored to since the last `l.psync` or `l.csync`, kept only under
  `FETCH_STALE` (R90). -/
  stale    : List Nat
  /-- What the outside does before each of the coming steps; nothing once the list is empty. -/
  inputs   : List Input
  /-- The model's own: how many free values the run has used (log entry 4). -/
  draws    : Nat
  deriving DecidableEq, Repr

/-- The exceptions of R500, with the address each carries. -/
inductive Exc where
  | reset
  | busError (ea : BitVec 64)
  | dataPageFault (ea : BitVec 64)
  | insnPageFault (ea : BitVec 64)
  | tickTimer
  | alignment (ea : BitVec 64)
  | illegalInstruction
  | externalInterrupt
  | dtlbMiss (ea : BitVec 64)
  | itlbMiss (ea : BitVec 64)
  | range
  | systemCall
  | floatingPoint
  | trap
  deriving DecidableEq, Repr

/-- How a run ends under the fault reading of exceptions; under the other reading, the default, no step
faults (R517). -/
inductive Fault where
  /-- The exception, with its address, and the pc at which it is raised. Raised by `raise` alone; safe:
  the model stops where hardware goes on. -/
  | raised (e : Exc) (pc : BitVec 64)
  deriving DecidableEq, Repr

/-- Why a step has no successor although nothing went wrong in the model: the spec's `refuse`. All
are safe: the model stops where hardware may go on. -/
inductive Refusal where
  /-- An instruction whose meaning is not written; raised by `exec` alone (no arm raises it). -/
  | notModelled (mnemonic : String)
  /-- A word with identifying bits of `mnemonic` and reserved bits that are not zero (R111); raised by
  the fetch, and by the custom instructions whose reserved bits are a parameter. -/
  | reservedBits (mnemonic : String)
  /-- A jump, a branch or `l.rfe` in a delay slot (R217). -/
  | jumpInDelaySlot
  /-- `l.sys` or `l.trap` in a delay slot (R215). -/
  | sysInDelaySlot
  /-- `l.jalr r9` (R214). -/
  | jalrLinkRegister
  /-- A value with LEE, DCE, ICE, or, without an MMU, DME or IME set offered to SR (R77, R79, R91). -/
  | unsupportedSrBit
  /-- An SPR instruction or `l.rfe` in user mode under `USER_SPR_POLICY = refuse` (R288). -/
  | userSprAccess
  /-- A write of NPC where that SPR is implemented (R55). -/
  | npcWrite
  /-- A custom instruction that `CustomSem` leaves undefined (R114). -/
  | customUndefined
  /-- `lf.madd.s` or `lf.madd.d` under `FP_MADD = refuse` (R313, R314). -/
  | fpMaddUndefined
  /-- `lv.madds.h` or `lv.msubs.h` under `LV_VMAC = refuse` (R430, R437). -/
  | vmacUndefined
  /-- `lv.sll` or `lv.srl` under `LV_WHOLE_SHIFT = refuse` (R451, R456). -/
  | wholeShiftUndefined
  /-- Under `FETCH_STALE`, a fetch of a location stored to since the last synchronisation (R90). -/
  | staleFetch
  deriving DecidableEq, Repr

/-- The outcome of an instruction or a step. -/
abbrev Outcome := Host.Outcome State Fault Refusal

/-- The state after reset under a configuration (R62, R560). -/
def resetWith (c : Config) : State where
  cfg      := c
  regs     := Vector.replicate 32 unspecifiedReset
  pc       := resetPc c
  ppc      := unspecifiedReset
  ds       := none
  sr       := resetSr c
  epcr     := unspecifiedReset
  esr      := unspecifiedReset
  eear     := unspecifiedReset
  evbar    := resetEvbar c
  aecr     := 0#32
  aesr     := 0#32
  machi    := unspecifiedReset
  maclo    := unspecifiedReset
  fpcsr    := 0#32
  fpmaddhi := unspecifiedReset
  fpmaddlo := unspecifiedReset
  vmachi   := unspecifiedReset
  vmaclo   := unspecifiedReset
  resv     := none
  mem      := []
  stale    := []
  inputs   := []
  draws    := 0

/-- The machine right after reset, under the default configuration. -/
def State.reset : State := resetWith defaultConfig

end Sys2Proof.Machine
end

