-- ==== Sys2Proof/Machine/Flags.lean ====
section
/-! DEFINITION. The bits of the supervision register, and every flag computation of the integer
and MAC instructions, stated over exact integers (R28, R131 to R133, R251). -/

namespace Sys2Proof.Machine

/-! Where the fields of SR stand (R28). -/

def srSM : Nat := 0
def srTEE : Nat := 1
def srIEE : Nat := 2
def srDCE : Nat := 3
def srICE : Nat := 4
def srDME : Nat := 5
def srIME : Nat := 6
def srLEE : Nat := 7
def srF : Nat := 9
def srCY : Nat := 10
def srOV : Nat := 11
def srOVE : Nat := 12
def srDSX : Nat := 13
def srEPH : Nat := 14
def srFO : Nat := 15

/-- `v` with bit `i` made `b` (R10: the other fields keep their values). -/
def setBit {n : Nat} (v : BitVec n) (i : Nat) (b : Bool) : BitVec n :=
  if b then v ||| BitVec.twoPow n i else v &&& ~~~BitVec.twoPow n i

/-- One field of SR. -/
def State.srBit (s : State) (i : Nat) : Bool := s.sr.getLsbD i

/-- `SR[i] <- b`, the other fields unchanged (R10). -/
def State.setSrBit (s : State) (i : Nat) (b : Bool) : State := { s with sr := setBit s.sr i b }

/-- The compare flag, the carry flag, the overflow flag (R29, R30, R31). -/
def State.flagF (s : State) : Bool := s.srBit srF
def State.flagCY (s : State) : Bool := s.srBit srCY
def State.flagOV (s : State) : Bool := s.srBit srOV
def State.setF (s : State) (b : Bool) : State := s.setSrBit srF b
def State.setCY (s : State) (b : Bool) : State := s.setSrBit srCY b
def State.setOV (s : State) (b : Bool) : State := s.setSrBit srOV b

/-- Supervisor mode (R33). -/
def State.supervisor (s : State) : Bool := s.srBit srSM

/-- A value offered to SR that the spec refuses: LEE, DCE, ICE, and DME or IME where no `Translate`
is supplied (R77, R79, R91, U23). -/
def refusedSr (c : Config) (v : BitVec 32) : Bool :=
  v.getLsbD srLEE || v.getLsbD srDCE || v.getLsbD srICE ||
    (!c.hasMmu && (v.getLsbD srDME || v.getLsbD srIME))

/-- What SR holds after `v` is written to it: the named fields as offered, the reserved bits 27:17
zero, `FO` one (R36, D44). -/
def writtenSr (v : BitVec 32) : BitVec 32 := (v &&& 0xF0017FFF#32) ||| 0x00008000#32

/-- Whether an exact integer is outside the signed range of `n` bits. -/
def signedOverflow (n : Nat) (i : Int) : Bool := i < -(2 ^ (n - 1)) || 2 ^ (n - 1) - 1 < i

/-- The result and the two flags of an addition or a subtraction. -/
structure AddResult (n : Nat) where
  res : BitVec n
  cy  : Bool
  ov  : Bool
  deriving DecidableEq, Repr

/-- Addition with carry in, one exact sum (R131, R137). -/
def addFlags {n : Nat} (a b : BitVec n) (c : Bool) : AddResult n where
  res := BitVec.ofNat n (a.toNat + b.toNat + c.toNat)
  cy  := 2 ^ n ≤ a.toNat + b.toNat + c.toNat
  ov  := signedOverflow n (a.toInt + b.toInt + c.toNat)

/-- Subtraction; the carry is the borrow (R132, D47). -/
def subFlags {n : Nat} (a b : BitVec n) : AddResult n where
  res := BitVec.ofInt n ((a.toNat : Int) - b.toNat)
  cy  := a.toNat < b.toNat
  ov  := signedOverflow n (a.toInt - b.toInt)

/-- Signed multiplication: the truncated product and whether it fits (R133). -/
def mulSigned {n : Nat} (a b : BitVec n) : BitVec n × Bool :=
  (BitVec.ofInt n (a.toInt * b.toInt), signedOverflow n (a.toInt * b.toInt))

/-- Unsigned multiplication: the truncated product and whether it fits (R133). -/
def mulUnsigned {n : Nat} (a b : BitVec n) : BitVec n × Bool :=
  (BitVec.ofNat n (a.toNat * b.toNat), 2 ^ n ≤ a.toNat * b.toNat)

/-! The accumulate stage of the MAC instructions (R251). The product enters as its low 64 bits,
read signed or unsigned as the instruction says (D38). -/

def accAddSigned (acc : BitVec 64) (p : Int) : BitVec 64 × Bool :=
  let sum := acc.toInt + (BitVec.ofInt 64 p).toInt
  (BitVec.ofInt 64 sum, signedOverflow 64 sum)

def accAddUnsigned (acc : BitVec 64) (p : Nat) : BitVec 64 × Bool :=
  let sum := acc.toNat + p % 2 ^ 64
  (BitVec.ofNat 64 sum, 2 ^ 64 ≤ sum)

def accSubSigned (acc : BitVec 64) (p : Int) : BitVec 64 × Bool :=
  let dif := acc.toInt - (BitVec.ofInt 64 p).toInt
  (BitVec.ofInt 64 dif, signedOverflow 64 dif)

def accSubUnsigned (acc : BitVec 64) (p : Nat) : BitVec 64 × Bool :=
  let dif : Int := (acc.toNat : Int) - (p % 2 ^ 64 : Nat)
  (BitVec.ofInt 64 dif, dif < 0)

/-! The events of R45, as the bits of AECR and AESR. -/

def evCYADDE : BitVec 7 := 0x01#7
def evOVADDE : BitVec 7 := 0x02#7
def evCYMULE : BitVec 7 := 0x04#7
def evOVMULE : BitVec 7 := 0x08#7
def evDBZE : BitVec 7 := 0x10#7
def evCYMACADDE : BitVec 7 := 0x20#7
def evOVMACADDE : BitVec 7 := 0x40#7

/-- The event `e` if it happened. -/
def eventIf (happened : Bool) (e : BitVec 7) : BitVec 7 := if happened then e else 0#7

/-- The AECR and AESR bits that exist: those of an absent unit read zero (R45, U16). -/
def aecrBits (c : Config) : BitVec 7 :=
  evCYADDE ||| evOVADDE ||| (if c.hasMul then evCYMULE ||| evOVMULE else 0#7) |||
    (if c.hasDiv then evDBZE else 0#7) ||| (if c.hasMac then evCYMACADDE ||| evOVMACADDE else 0#7)

end Sys2Proof.Machine
end

