-- ==== Sys2Proof/Machine/Memory.lean ====
section
/-! DEFINITION. Memory as a list of cells in canonical form (R70), wider accesses big-endian from
single bytes (R74, R75, R77), and the platform's answers: `Translate` and `BusOK` (R79, R81). -/

namespace Sys2Proof.Machine

/-- What an address no write has touched reads as: the spec gives memory no contents (R62), and
the model takes zero (log entry 2). -/
def unwrittenByte : Byte := 0#8

/-- The byte at an address. -/
def readByte (m : List Host.Cell) (a : Nat) : Byte :=
  match m with
  | [] => unwrittenByte
  | (k, b) :: rest => if k = a then b else readByte rest a

/-- The cell to put in front of `rest`: none for a byte an unlisted address reads as. -/
def consCell (a : Nat) (b : Byte) (rest : List Host.Cell) : List Host.Cell :=
  if b = unwrittenByte then rest else (a, b) :: rest

/-- Write one byte, keeping the canonical form. -/
def writeByte (m : List Host.Cell) (a : Nat) (b : Byte) : List Host.Cell :=
  match m with
  | [] => consCell a b []
  | (k, c) :: rest =>
    if a < k then consCell a b ((k, c) :: rest)
    else if a = k then consCell a b rest
    else (k, c) :: writeByte rest a b

/-- Every address of the list is above `lo`, addresses rise strictly, and no listed byte is what an
unlisted address reads as. -/
def wfAbove (lo : Option Nat) (m : List Host.Cell) : Bool :=
  match m with
  | [] => true
  | (k, b) :: rest =>
    (match lo with | none => true | some l => decide (l < k)) && decide (b ≠ unwrittenByte) &&
      wfAbove (some k) rest

/-- The canonical form of memory. -/
def Memory.wf (m : List Host.Cell) : Bool := wfAbove none m

/-- The `n` bytes from `a` up. -/
def readBytes (m : List Host.Cell) (a n : Nat) : List Byte :=
  (List.range n).map fun i => readByte m (a + i)

/-- Write bytes at `a` and up. -/
def writeBytes (m : List Host.Cell) (a : Nat) (bs : List Byte) : List Host.Cell :=
  match bs with
  | [] => m
  | b :: rest => writeBytes (writeByte m a b) (a + 1) rest

/-- The number that bytes spell, the first the most significant (R74). -/
def bigEndian (bs : List Byte) : Nat := bs.foldl (fun acc b => acc * 256 + b.toNat) 0

/-- The `n` bytes of a number, the most significant first (R75). -/
def bytesOf (n v : Nat) : List Byte :=
  (List.range n).map fun i => BitVec.ofNat 8 (v / 256 ^ (n - 1 - i))

/-- Whether a stretch of memory admits accesses of a kind and a width. -/
def regionAdmits (r : Region) (k : AccessKind) (n : Nat) : Bool :=
  match k with
  | .load => r.loads.contains n
  | .store => r.stores.contains n
  | .fetch => r.fetches.contains n

/-- `BusOK`: every one of the `n` bytes at `pa` is answered for this kind and width of access (R81). -/
def busOk (c : Config) (pa n : Nat) (k : AccessKind) : Bool :=
  (List.range n).all fun i =>
    c.regions.any fun r => decide (r.base ≤ pa + i) && decide (pa + i < r.base + r.size) && regionAdmits r k n

/-- Whether a mode may use a page (R80). -/
def pageAllows (p : Page) (supervisor : Bool) : Bool := if supervisor then p.supervisor else p.user

/-- The pages of a kind of access (R79). -/
def pagesOf (c : Config) (k : AccessKind) : List Page :=
  match k with
  | .load => c.loadPages
  | .store => c.storePages
  | .fetch => c.fetchPages

/-- The outcome of a translation: a physical address, no entry, or an entry that forbids it. -/
inductive Translation where
  | to (pa : Nat)
  | miss
  | denied
  deriving DecidableEq, Repr

/-- Look an effective address up in a list of pages (R80). -/
def lookupPage (ps : List Page) (supervisor : Bool) (ea : Nat) : Translation :=
  match ps.find? fun p => decide (p.va ≤ ea) && decide (ea < p.va + p.size) with
  | none => .miss
  | some p => if pageAllows p supervisor then .to (p.pa + (ea - p.va)) else .denied

end Sys2Proof.Machine
end

