-- ==== Sys2Proof/Machine/Ops.lean ====
section
/-! DEFINITION. The shared operations over registers, the pc, exceptions, memory and special
registers. Every meaning is written over these. -/

namespace Sys2Proof.Machine

/-! ### Registers and the pc -/

/-- `XLEN` as a number of bits. -/
def State.width (s : State) : Nat := s.cfg.xlen.bits

/-- `trunc_XLEN` of an address, held in 64 bits (R27, D35). -/
def State.trunc (s : State) (v : BitVec 64) : BitVec 64 := (v.setWidth s.width).setWidth 64

/-- `x[r]` (R10, R20). No register number is special (R21). -/
def State.reg (s : State) (r : RegNum) : BitVec s.width := (s.regs.get r.toFin).setWidth s.width

/-- `x[r] <- v` (R10, R20, R21). -/
def State.setReg (s : State) (r : RegNum) {n : Nat} (v : BitVec n) : State :=
  { s with regs := s.regs.set r.toNat (v.setWidth 64) r.isLt }

/-- The next free value (R143, R300: "any value"). -/
def State.free (s : State) : BitVec 64 := Config.freeWord s.draws

/-- One free value is used up. -/
def State.spend (s : State) : State := { s with draws := s.draws + 1 }

/-- The next fetch is at `t` (R10). -/
def State.goto (s : State) (t : BitVec 64) : State := { s with pc := t, ppc := s.pc }

/-- The address of the instruction executed after one that takes no jump (R27). -/
def State.nextPc (s : State) : BitVec 64 :=
  match s.ds with
  | some t => t
  | none => s.trunc (s.pc + 4#64)

/-- The ordinary advance of R27, out of a delay slot to the pending target. -/
def State.advance (s : State) : State := { s.goto s.nextPc with ds := none }

/-- A taken jump to `t` (R27, R201). -/
def State.takeJump (s : State) (t : BitVec 64) : State :=
  if s.cfg.nd then s.goto t else { s.goto (s.trunc (s.pc + 4#64)) with ds := some t }

/-- An instruction that is done. -/
def finish (s : State) : Outcome := .next s.advance

/-! ### Exceptions -/

/-- The row of an exception in the table (R500, R508, R517). -/
def excEntry (c : Config) (e : Exc) : ExcEntry :=
  match e with
  | .reset => c.exceptions.reset
  | .busError _ => c.exceptions.busError
  | .dataPageFault _ => c.exceptions.dataPageFault
  | .insnPageFault _ => c.exceptions.insnPageFault
  | .tickTimer => c.exceptions.tickTimer
  | .alignment _ => c.exceptions.alignment
  | .illegalInstruction => c.exceptions.illegalInstruction
  | .externalInterrupt => c.exceptions.externalInterrupt
  | .dtlbMiss _ => c.exceptions.dtlbMiss
  | .itlbMiss _ => c.exceptions.itlbMiss
  | .range => c.exceptions.range
  | .systemCall => c.exceptions.systemCall
  | .floatingPoint => c.exceptions.floatingPoint
  | .trap => c.exceptions.trap

/-- `VectorAddr` of R506. -/
def vectorAddr (s : State) (e : Exc) : BitVec 64 :=
  ((if s.srBit srEPH then 0xF0000000#32 else 0#32) |||
    (if s.cfg.evbarp then s.evbar &&& 0xFFFFE000#32 else 0#32) ||| (excEntry s.cfg e).offset).setWidth 64

/-- The resume address of R508: the jump of a delay slot, or what the table says. -/
def resumeAddr (s : State) (e : Exc) : BitVec 64 :=
  if s.ds.isSome then s.trunc (s.pc - 4#64)
  else
    match (excEntry s.cfg e).resume with
    | .next => s.trunc (s.pc + 4#64)
    | .self => s.trunc s.pc

/-- What EEAR holds after an exception (R509): the address the exception carries; for
IllegalInstruction the pc, where the configuration says so (log entry 11). -/
def eearAfter (s : State) (e : Exc) : BitVec 64 :=
  match e with
  | .busError ea => ea
  | .dataPageFault ea => ea
  | .insnPageFault ea => ea
  | .alignment ea => ea
  | .dtlbMiss ea => ea
  | .itlbMiss ea => ea
  | .illegalInstruction => if s.cfg.illegalEear then s.pc else s.eear
  | _ => s.eear

/-- SR as exception entry leaves it (R507): supervisor, interrupts masked, translation off, no range
exceptions, DSX telling a delay slot; every other bit as it was. -/
def entrySr (sr : BitVec 32) (inSlot : Bool) : BitVec 32 :=
  setBit (setBit (setBit (setBit (setBit (setBit (setBit sr srSM true) srIEE false) srTEE false)
    srDME false) srIME false) srOVE false) srDSX inSlot

/-- Taking an exception or an interrupt (R507). -/
def enter (s : State) (e : Exc) : State :=
  { s with
    esr  := s.sr
    epcr := resumeAddr s e
    eear := eearAfter s e
    sr   := entrySr s.sr s.ds.isSome
    ds   := none
    resv := none
    pc   := vectorAddr s e
    ppc  := s.pc }

/-- `raise` of R12: the instruction ends and the exception is taken, or the run ends in it (R517). -/
def raise (s : State) (e : Exc) : Outcome :=
  match s.cfg.excReading with
  | .taken => .next (enter s e)
  | .fault => .fault (.raised e s.pc)

/-- Returning from an exception (R285, R513): SR from ESR, the pc from EPCR, the reservation gone,
no delay slot. An ESR with a bit the spec refuses in SR is refused (U23). -/
def returnFromException (s : State) : Outcome :=
  if refusedSr s.cfg s.esr then .refused .unsupportedSrBit
  else .next { s.goto s.epcr with sr := writtenSr s.esr, resv := none, ds := none }

/-- An instruction of an optional unit, or of one width: IllegalInstruction where it is absent
(R113). -/
def whenPresent (present : Bool) (s : State) (k : Outcome) : Outcome :=
  if present then k else raise s .illegalInstruction

/-- A jump, a branch or `l.rfe`: refused in a delay slot (R217). -/
def outsideSlot (s : State) (k : Outcome) : Outcome :=
  if s.ds.isSome then .refused .jumpInDelaySlot else k

/-- `l.mfspr`, `l.mtspr` and `l.rfe`: `k` in supervisor mode; in user mode what `USER_SPR_POLICY`
says, `ignored` being the outcome under `ignore` (R288). -/
def privileged (s : State) (ignored k : Outcome) : Outcome :=
  if s.supervisor then k
  else
    match s.cfg.userSprPolicy with
    | .illegal => raise s .illegalInstruction
    | .ignore => ignored
    | .refuse => .refused .userSprAccess

/-- The enabled range-exception causes (R503). -/
def rangeControl (s : State) : BitVec 7 :=
  if s.cfg.aecsrp then s.aecr.setWidth 7 else s.cfg.aecrAbsentMask

/-- `ArithEvent` of R503, after the result and the flags are written (R134); without an exception
the instruction is done. `SR[OVE]` is not written by an arithmetic instruction, so its value here
is the one before the instruction. -/
def arithEvent (s : State) (ev : BitVec 7) : Outcome :=
  let hit := ev &&& rangeControl s
  if s.srBit srOVE && hit != 0#7 then
    raise (if s.cfg.aecsrp then { s with aesr := s.aesr ||| hit.setWidth 32 } else s) .range
  else finish s

/-! ### Memory -/

/-- The bit of SR that enables the translation of a kind of access (R79). -/
def enableBit (k : AccessKind) : Nat :=
  match k with
  | .fetch => srIME
  | _ => srDME

/-- `Translate` of R79: identity unless the MMU is supplied and enabled for this side. -/
def translate (s : State) (k : AccessKind) (ea : BitVec 64) : Translation :=
  if s.srBit (enableBit k) && s.cfg.hasMmu then lookupPage (pagesOf s.cfg k) s.supervisor ea.toNat else .to ea.toNat

/-- The exception of an address without a translation (R80). -/
def missOf (k : AccessKind) (ea : BitVec 64) : Exc :=
  match k with
  | .fetch => .itlbMiss ea
  | _ => .dtlbMiss ea

/-- The exception of an access its page forbids (R80). -/
def pageFaultOf (k : AccessKind) (ea : BitVec 64) : Exc :=
  match k with
  | .fetch => .insnPageFault ea
  | _ => .dataPageFault ea

/-- The checks of one access of `n` bytes, in the order of R83: alignment, translation, bus. The
physical address, or the exception. -/
def access (s : State) (k : AccessKind) (n : Nat) (ea : BitVec 64) : Except Exc Nat :=
  if ea.toNat % n ≠ 0 then .error (.alignment ea)
  else
    match translate s k ea with
    | .miss => .error (missOf k ea)
    | .denied => .error (pageFaultOf k ea)
    | .to pa => if busOk s.cfg pa n k then .ok pa else .error (.busError ea)

/-- The datum of `n` bytes at a physical address (R74). -/
def loadDatum (s : State) (pa n : Nat) : BitVec (8 * n) := BitVec.ofNat (8 * n) (bigEndian (readBytes s.mem pa n))

/-- Whether a write of `n` bytes at `pa` touches the reserved word at `r` (R88). -/
def overlapsWord (r pa n : Nat) : Bool := decide (pa < r + 4) && decide (r < pa + n)

/-- The reservation after a write of `n` bytes at `pa` (R75, R88). -/
def resvAfterWrite (resv : Option Nat) (pa n : Nat) : Option Nat :=
  match resv with
  | some r => if overlapsWord r pa n then none else some r
  | none => none

/-- Store the low `8 n` bits of `v` at a physical address (R75). The reservation is broken where the
written bytes overlap the reserved word (R88), and under `FETCH_STALE` the bytes become stale for
fetch (R90). -/
def storeDatum (s : State) (pa n v : Nat) : State :=
  { s with
    mem   := writeBytes s.mem pa (bytesOf n v)
    resv  := resvAfterWrite s.resv pa n
    stale := if s.cfg.fetchStale then (List.range n).map (pa + ·) ++ s.stale else s.stale }

/-! ### Special-purpose registers -/

/-- The special-purpose registers of R39. -/
inductive Spr where
  | vr
  | upr
  | cpucfgr
  | vr2
  | avr
  | evbar
  | aecr
  | aesr
  | npc
  | sr
  | ppc
  | fpcsr
  | isr (i : Fin 8)
  | epcr
  | eear
  | esr
  | gpr (r : RegNum)
  | maclo
  | machi
  deriving DecidableEq, Repr

/-- Whether a floating-point unit is present. -/
def hasFpu (c : Config) : Bool := c.hasFpx32 || (c.hasFpx64 && c.xlen == .x64)

/-- `SprImplemented` of an address whose register is present (R38): what the set of the configuration
says, else what the default of D9 says. -/
def sprListed (c : Config) (a : Nat) (byDefault : Bool) : Bool :=
  match c.sprSet with
  | none => byDefault
  | some l => l.contains a

/-- The registers at fixed addresses, and whether the configuration has them (R39, D9). -/
def sprTable (c : Config) : List (Nat × Spr × Bool) :=
  [(0x0000, .vr, sprListed c 0x0000 true), (0x0001, .upr, sprListed c 0x0001 true),
   (0x0002, .cpucfgr, sprListed c 0x0002 true), (0x0009, .vr2, c.uvrp && sprListed c 0x0009 true),
   (0x000A, .avr, c.avrp && sprListed c 0x000A true), (0x000B, .evbar, c.evbarp && sprListed c 0x000B true),
   (0x000C, .aecr, c.aecsrp && sprListed c 0x000C true), (0x000D, .aesr, c.aecsrp && sprListed c 0x000D true),
   (0x0010, .npc, sprListed c 0x0010 false), (0x0011, .sr, sprListed c 0x0011 true),
   (0x0012, .ppc, sprListed c 0x0012 false), (0x0014, .fpcsr, hasFpu c && sprListed c 0x0014 true),
   (0x0015, .isr 0, c.isrp && sprListed c 0x0015 true), (0x0016, .isr 1, c.isrp && sprListed c 0x0016 true),
   (0x0017, .isr 2, c.isrp && sprListed c 0x0017 true), (0x0018, .isr 3, c.isrp && sprListed c 0x0018 true),
   (0x0019, .isr 4, c.isrp && sprListed c 0x0019 true), (0x001A, .isr 5, c.isrp && sprListed c 0x001A true),
   (0x001B, .isr 6, c.isrp && sprListed c 0x001B true), (0x001C, .isr 7, c.isrp && sprListed c 0x001C true),
   (0x0020, .epcr, sprListed c 0x0020 true), (0x0030, .eear, sprListed c 0x0030 true),
   (0x0040, .esr, sprListed c 0x0040 true), (0x2801, .maclo, c.hasMac && sprListed c 0x2801 true),
   (0x2802, .machi, c.hasMac && sprListed c 0x2802 true)]

/-- The register at an SPR address, if one is implemented there (`SprImplemented`, R38). -/
def sprAt (c : Config) (a : BitVec 16) : Option Spr :=
  if 0x400 ≤ a.toNat ∧ a.toNat < 0x420 then
    if sprListed c a.toNat false then some (.gpr (BitVec.ofNat 5 a.toNat)) else none
  else
    match (sprTable c).find? fun e => e.1 == a.toNat && e.2.2 with
    | some e => some e.2.1
    | none => none

/-- VR: the constant with bit 6 forced to `UVRP` (R41). -/
def vrWord (c : Config) : BitVec 32 := setBit c.vrValue 6 c.uvrp

/-- CPUCFGR: bits 14 to 10 from the parameters, the bits below from the constant (R48). -/
def cpucfgrWord (c : Config) : BitVec 32 :=
  setBit (setBit (setBit (setBit (setBit (c.cpucfgrOther &&& 0x3FF#32) 10 c.nd) 11 c.avrp) 12 c.evbarp)
    13 c.isrp) 14 c.aecsrp

/-- The value of a register, its low 32 bits where it is wider (R37, R280, D34). -/
def readSpr (s : State) (r : Spr) : BitVec 32 :=
  match r with
  | .vr => vrWord s.cfg
  | .upr => s.cfg.uprValue
  | .cpucfgr => cpucfgrWord s.cfg
  | .vr2 => s.cfg.vr2Cpuid ++ s.cfg.vr2Ver
  | .avr => s.cfg.avrValue
  | .evbar => s.evbar
  | .aecr => s.aecr
  | .aesr => s.aesr
  | .npc => s.nextPc.setWidth 32
  | .sr => s.sr
  | .ppc => s.ppc.setWidth 32
  | .fpcsr => s.fpcsr
  | .isr i => s.cfg.isrValue.get i
  | .epcr => s.epcr.setWidth 32
  | .eear => s.eear.setWidth 32
  | .esr => s.esr
  | .gpr r => (s.reg r).setWidth 32
  | .maclo => s.maclo
  | .machi => s.machi

/-- The write of a register (R36, R44 to R46, R50 to R53, R56, R282): read-only registers ignore it, a
64-bit register receives the word zero-extended (D34). -/
def writeSpr (s : State) (r : Spr) (v : BitVec 32) : Except Refusal State :=
  match r with
  | .vr => .ok s
  | .upr => .ok s
  | .cpucfgr => .ok s
  | .vr2 => .ok s
  | .avr => .ok s
  | .evbar => .ok { s with evbar := v &&& 0xFFFFE000#32 }
  | .aecr => .ok { s with aecr := v &&& (aecrBits s.cfg).setWidth 32 }
  | .aesr => .ok { s with aesr := v &&& (aecrBits s.cfg).setWidth 32 }
  | .npc => .error .npcWrite
  | .sr => if refusedSr s.cfg v then .error .unsupportedSrBit else .ok { s with sr := writtenSr v }
  | .ppc => .ok s
  | .fpcsr => .ok { s with fpcsr := v &&& 0xFFF#32 }
  | .isr _ => .ok s
  | .epcr => .ok { s with epcr := v.setWidth 64 }
  | .eear => .ok { s with eear := v.setWidth 64 }
  | .esr => .ok { s with esr := v }
  | .gpr r => .ok (s.setReg r v)
  | .maclo => .ok { s with maclo := v }
  | .machi => .ok { s with machi := v }

/-- `spr[a]`: zero where nothing is implemented (R38). -/
def sprRead (s : State) (a : BitVec 16) : BitVec 32 :=
  match sprAt s.cfg a with
  | some r => readSpr s r
  | none => 0#32

/-- `spr[a] <- v`: nothing where nothing is implemented (R38). -/
def sprWrite (s : State) (a : BitVec 16) (v : BitVec 32) : Except Refusal State :=
  match sprAt s.cfg a with
  | some r => writeSpr s r v
  | none => .ok s

/-! ### The accumulator -/

/-- `acc = MACHI ++ MACLO` (R250). -/
def State.acc (s : State) : BitVec 64 := s.machi ++ s.maclo

/-- `acc <- v` (R250). -/
def State.setAcc (s : State) (v : BitVec 64) : State :=
  { s with machi := v.extractLsb' 32 32, maclo := v.extractLsb' 0 32 }

end Sys2Proof.Machine
end

