-- ==== Sys2Proof/Machine/Operands.lean ====
section
/-! DEFINITION. The operand forms: how an immediate is extended, what a shift amount is, where a
branch goes, which effective address and which SPR address an instruction forms (R71, R102, R135,
R201, R280). -/

namespace Sys2Proof.Machine

/-- `sext_XLEN(I)` (R102). -/
def immSigned (s : State) (imm : BitVec 16) : BitVec s.width := imm.signExtend s.width

/-- `zext_XLEN(K)` (R102). -/
def immZero (s : State) (imm : BitVec 16) : BitVec s.width := imm.setWidth s.width

/-- The bits of a shift amount that count: 5 at `XLEN = 32`, 6 at `XLEN = 64` (R135). -/
def amountBits (x : XLen) : Nat :=
  match x with
  | .x32 => 5
  | .x64 => 6

/-- The shift amount of a register form (R135). -/
def shiftAmountReg (s : State) (rB : RegNum) : Nat := (s.reg rB).toNat % 2 ^ amountBits s.cfg.xlen

/-- The shift amount of an immediate form (R135). -/
def shiftAmountImm (s : State) (l : BitVec 6) : Nat := l.toNat % 2 ^ amountBits s.cfg.xlen

/-- The target of a pc-relative jump: `trunc_XLEN(pc + sext_XLEN(N ++ 00))` (R201). -/
def branchTarget (s : State) (n : BitVec 26) : BitVec 64 :=
  s.trunc (s.pc + (n ++ 0#2).signExtend 64)

/-- The return address of a link (R205, R206). -/
def linkAddr (s : State) : BitVec 64 := s.trunc (s.pc + if s.cfg.nd then 4#64 else 8#64)

/-- The target of a register jump: `x[rB]` (R206, R207). -/
def registerTarget (s : State) (rB : RegNum) : BitVec 64 := (s.reg rB).setWidth 64

/-- The effective address of a load or a store: `trunc_XLEN(sext_XLEN(I) + x[rA])` (R71). -/
def effectiveAddr (s : State) (rA : RegNum) (imm : BitVec 16) : BitVec 64 :=
  (immSigned s imm + s.reg rA).setWidth 64

/-- The SPR address: `(x[rA] | zext_XLEN(K))[15:0]` (R280, R282, D8). -/
def sprAddr (s : State) (rA : RegNum) (imm : BitVec 16) : BitVec 16 :=
  (s.reg rA ||| immZero s imm).setWidth 16

end Sys2Proof.Machine
end

