-- ==== Sys2Proof/Machine/Arith.lean ====
section
/-! DEFINITION. Integer arithmetic, logic, shift, extend and move instructions (R130 to R169). -/

namespace Sys2Proof.Machine

/-! ### Shapes shared by several instructions -/

/-- The end of an addition or a subtraction: the result, CY, OV, then the range events (R131, R132,
R134). -/
def addArith (s : State) (rD : RegNum) (r : AddResult s.width) : Outcome :=
  arithEvent (((s.setReg rD r.res).setCY r.cy).setOV r.ov) (eventIf r.cy evCYADDE ||| eventIf r.ov evOVADDE)

/-- The end of a signed multiplication: the result and OV, CY unchanged (R133). -/
def mulArith (s : State) (rD : RegNum) (r : BitVec s.width × Bool) : Outcome :=
  arithEvent ((s.setReg rD r.1).setOV r.2) (eventIf r.2 evOVMULE)

/-- The quotient of two signed numbers, rounded toward zero (R143, D14). -/
def quotSigned {n : Nat} (a b : BitVec n) : BitVec n := BitVec.ofInt n (a.toInt.tdiv b.toInt)

/-- The quotient of two unsigned numbers (R144). -/
def quotUnsigned {n : Nat} (a b : BitVec n) : BitVec n := BitVec.ofNat n (a.toNat / b.toNat)

/-- Whether a signed quotient does not fit: the most negative number by -1 (R143). -/
def quotOverflows {n : Nat} (a b : BitVec n) : Bool := signedOverflow n (a.toInt.tdiv b.toInt)

/-- Find first one: the 1-based position of the least significant one, 0 where there is none (R151). -/
def findFirst {n : Nat} (a : BitVec n) : Nat :=
  match (List.range n).find? fun i => a.getLsbD i with
  | some i => i + 1
  | none => 0

/-- Find last one: the 1-based position of the most significant one, 0 where there is none (R152). -/
def findLast {n : Nat} (a : BitVec n) : Nat :=
  match (List.range n).reverse.find? fun i => a.getLsbD i with
  | some i => i + 1
  | none => 0

/-- The end of a shift, or of any instruction that writes one register and no flag. -/
def regResult (s : State) (rD : RegNum) (v : BitVec s.width) : Outcome := finish (s.setReg rD v)

/-- An extension of the low `k` bits of `x[rA]`, with their sign or with zeros (R145 to R150). -/
def extend (s : State) (rD rA : RegNum) (k : Nat) (sign : Bool) : Outcome :=
  whenPresent s.cfg.hasExt s <|
    regResult s rD <|
      let v : BitVec k := (s.reg rA).setWidth k
      if sign then v.signExtend s.width else v.setWidth s.width

/-! ### Instructions -/

/-- `l.add` (R136). -/
def execLAdd (rD rA rB : RegNum) (s : State) : Outcome := addArith s rD (addFlags (s.reg rA) (s.reg rB) false)

/-- `l.addc` (R137). -/
def execLAddc (rD rA rB : RegNum) (s : State) : Outcome :=
  addArith s rD (addFlags (s.reg rA) (s.reg rB) s.flagCY)

/-- `l.addi` (R138). -/
def execLAddi (rD rA : RegNum) (imm : BitVec 16) (s : State) : Outcome :=
  addArith s rD (addFlags (s.reg rA) (immSigned s imm) false)

/-- `l.addic` (R139). -/
def execLAddic (rD rA : RegNum) (imm : BitVec 16) (s : State) : Outcome :=
  addArith s rD (addFlags (s.reg rA) (immSigned s imm) s.flagCY)

/-- `l.and` (R140). -/
def execLAnd (rD rA rB : RegNum) (s : State) : Outcome := regResult s rD (s.reg rA &&& s.reg rB)

/-- `l.andi` (R141). -/
def execLAndi (rD rA : RegNum) (imm : BitVec 16) (s : State) : Outcome :=
  regResult s rD (s.reg rA &&& immZero s imm)

/-- `l.cmov` (R142). -/
def execLCmov (rD rA rB : RegNum) (s : State) : Outcome :=
  whenPresent s.cfg.hasCmov s (regResult s rD (if s.flagF then s.reg rA else s.reg rB))

/-- `l.div` (R143). By zero, and where the quotient does not
fit, the result is a free value (D14, D15). -/
def execLDiv (rD rA rB : RegNum) (s : State) : Outcome :=
  whenPresent s.cfg.hasDiv s <|
    if s.reg rB = 0 then arithEvent (((s.setReg rD (s.free.setWidth s.width)).setOV true).spend) evDBZE
    else if quotOverflows (s.reg rA) (s.reg rB) then finish (((s.setReg rD (s.free.setWidth s.width)).setOV false).spend)
    else finish ((s.setReg rD (quotSigned (s.reg rA) (s.reg rB))).setOV false)

/-- `l.divu` (R144). By zero the result is a free value (D15). -/
def execLDivu (rD rA rB : RegNum) (s : State) : Outcome :=
  whenPresent s.cfg.hasDiv s <|
    if s.reg rB = 0 then arithEvent (((s.setReg rD (s.free.setWidth s.width)).setCY true).spend) evDBZE
    else finish ((s.setReg rD (quotUnsigned (s.reg rA) (s.reg rB))).setCY false)

/-- `l.extbs` (R145). -/
def execLExtbs (rD rA : RegNum) (s : State) : Outcome := extend s rD rA 8 true

/-- `l.extbz` (R146). -/
def execLExtbz (rD rA : RegNum) (s : State) : Outcome := extend s rD rA 8 false

/-- `l.exths` (R147). -/
def execLExths (rD rA : RegNum) (s : State) : Outcome := extend s rD rA 16 true

/-- `l.exthz` (R148). -/
def execLExthz (rD rA : RegNum) (s : State) : Outcome := extend s rD rA 16 false

/-- `l.extws` (R149). -/
def execLExtws (rD rA : RegNum) (s : State) : Outcome := extend s rD rA 32 true

/-- `l.extwz` (R150). -/
def execLExtwz (rD rA : RegNum) (s : State) : Outcome := extend s rD rA 32 false

/-- `l.ff1` (R151). `rB` is ignored (C18). -/
def execLFf1 (rD rA _rB : RegNum) (s : State) : Outcome :=
  whenPresent s.cfg.hasFf1 s (regResult s rD (BitVec.ofNat s.width (findFirst (s.reg rA))))

/-- `l.fl1` (R152). `rB` is ignored (C18). -/
def execLFl1 (rD rA _rB : RegNum) (s : State) : Outcome :=
  whenPresent s.cfg.hasFf1 s (regResult s rD (BitVec.ofNat s.width (findLast (s.reg rA))))

/-- `l.movhi` (R153). -/
def execLMovhi (rD : RegNum) (imm : BitVec 16) (s : State) : Outcome := regResult s rD (immZero s imm <<< 16)

/-- `l.mul` (R154). -/
def execLMul (rD rA rB : RegNum) (s : State) : Outcome :=
  whenPresent s.cfg.hasMul s (mulArith s rD (mulSigned (s.reg rA) (s.reg rB)))

/-- `l.muli` (R155). -/
def execLMuli (rD rA : RegNum) (imm : BitVec 16) (s : State) : Outcome :=
  whenPresent s.cfg.hasMul s (mulArith s rD (mulSigned (s.reg rA) (immSigned s imm)))

/-- `l.mulu` (R156). -/
def execLMulu (rD rA rB : RegNum) (s : State) : Outcome :=
  whenPresent s.cfg.hasMul s <|
    let r := mulUnsigned (s.reg rA) (s.reg rB)
    arithEvent ((s.setReg rD r.1).setCY r.2) (eventIf r.2 evCYMULE)

/-- `l.or` (R157). -/
def execLOr (rD rA rB : RegNum) (s : State) : Outcome := regResult s rD (s.reg rA ||| s.reg rB)

/-- `l.ori` (R158). -/
def execLOri (rD rA : RegNum) (imm : BitVec 16) (s : State) : Outcome :=
  regResult s rD (s.reg rA ||| immZero s imm)

/-- `l.ror` (R159). -/
def execLRor (rD rA rB : RegNum) (s : State) : Outcome :=
  whenPresent s.cfg.hasRor s (regResult s rD ((s.reg rA).rotateRight (shiftAmountReg s rB)))

/-- `l.rori` (R160). -/
def execLRori (rD rA : RegNum) (l : BitVec 6) (s : State) : Outcome :=
  whenPresent s.cfg.hasRor s (regResult s rD ((s.reg rA).rotateRight (shiftAmountImm s l)))

/-- `l.sll` (R161). -/
def execLSll (rD rA rB : RegNum) (s : State) : Outcome := regResult s rD (s.reg rA <<< shiftAmountReg s rB)

/-- `l.slli` (R162). -/
def execLSlli (rD rA : RegNum) (l : BitVec 6) (s : State) : Outcome :=
  regResult s rD (s.reg rA <<< shiftAmountImm s l)

/-- `l.sra` (R163). -/
def execLSra (rD rA rB : RegNum) (s : State) : Outcome :=
  regResult s rD ((s.reg rA).sshiftRight (shiftAmountReg s rB))

/-- `l.srai` (R164). -/
def execLSrai (rD rA : RegNum) (l : BitVec 6) (s : State) : Outcome :=
  regResult s rD ((s.reg rA).sshiftRight (shiftAmountImm s l))

/-- `l.srl` (R165). -/
def execLSrl (rD rA rB : RegNum) (s : State) : Outcome := regResult s rD (s.reg rA >>> shiftAmountReg s rB)

/-- `l.srli` (R166). -/
def execLSrli (rD rA : RegNum) (l : BitVec 6) (s : State) : Outcome :=
  regResult s rD (s.reg rA >>> shiftAmountImm s l)

/-- `l.sub` (R167). -/
def execLSub (rD rA rB : RegNum) (s : State) : Outcome := addArith s rD (subFlags (s.reg rA) (s.reg rB))

/-- `l.xor` (R168). -/
def execLXor (rD rA rB : RegNum) (s : State) : Outcome := regResult s rD (s.reg rA ^^^ s.reg rB)

/-- `l.xori` (R169). -/
def execLXori (rD rA : RegNum) (imm : BitVec 16) (s : State) : Outcome :=
  regResult s rD (s.reg rA ^^^ immSigned s imm)

end Sys2Proof.Machine
end

