-- ==== Sys2Proof/WellFormed.lean ====
section
/-! DEFINITION. Which instructions are well formed. Register numbers and immediates carry their
widths in their types, so one check is left: `l.jalr` may not name the link register (R22, R214). -/

namespace Sys2Proof

/-- The link register r9 (R22). -/
def linkReg : RegNum := 9#5

/-- An instruction the spec allows in a program: every one but `l.jalr r9` (R214). -/
def Instr.wellFormed (i : Instr) : Bool :=
  match i with
  | .lJalr rB => rB != linkReg
  | .lAdd _ _ _ => true
  | .lAddc _ _ _ => true
  | .lAddi _ _ _ => true
  | .lAddic _ _ _ => true
  | .lAnd _ _ _ => true
  | .lAndi _ _ _ => true
  | .lBf _ => true
  | .lBnf _ => true
  | .lCmov _ _ _ => true
  | .lCsync => true
  | .lCust1 _ => true
  | .lCust2 _ => true
  | .lCust3 _ => true
  | .lCust4 _ => true
  | .lCust5 _ _ _ _ _ => true
  | .lCust6 _ => true
  | .lCust7 _ => true
  | .lCust8 _ => true
  | .lDiv _ _ _ => true
  | .lDivu _ _ _ => true
  | .lExtbs _ _ => true
  | .lExtbz _ _ => true
  | .lExths _ _ => true
  | .lExthz _ _ => true
  | .lExtws _ _ => true
  | .lExtwz _ _ => true
  | .lFf1 _ _ _ => true
  | .lFl1 _ _ _ => true
  | .lJ _ => true
  | .lJal _ => true
  | .lJr _ => true
  | .lLbs _ _ _ => true
  | .lLbz _ _ _ => true
  | .lLd _ _ _ => true
  | .lLhs _ _ _ => true
  | .lLhz _ _ _ => true
  | .lLwa _ _ _ => true
  | .lLws _ _ _ => true
  | .lLwz _ _ _ => true
  | .lMac _ _ => true
  | .lMaci _ _ => true
  | .lMacrc _ => true
  | .lMacu _ _ => true
  | .lMfspr _ _ _ => true
  | .lMovhi _ _ => true
  | .lMsb _ _ => true
  | .lMsbu _ _ => true
  | .lMsync => true
  | .lMtspr _ _ _ => true
  | .lMul _ _ _ => true
  | .lMuld _ _ => true
  | .lMuldu _ _ => true
  | .lMuli _ _ _ => true
  | .lMulu _ _ _ => true
  | .lNop _ => true
  | .lOr _ _ _ => true
  | .lOri _ _ _ => true
  | .lPsync => true
  | .lRfe => true
  | .lRor _ _ _ => true
  | .lRori _ _ _ => true
  | .lSb _ _ _ => true
  | .lSd _ _ _ => true
  | .lSfeq _ _ => true
  | .lSfeqi _ _ => true
  | .lSfges _ _ => true
  | .lSfgesi _ _ => true
  | .lSfgeu _ _ => true
  | .lSfgeui _ _ => true
  | .lSfgts _ _ => true
  | .lSfgtsi _ _ => true
  | .lSfgtu _ _ => true
  | .lSfgtui _ _ => true
  | .lSfles _ _ => true
  | .lSflesi _ _ => true
  | .lSfleu _ _ => true
  | .lSfleui _ _ => true
  | .lSflts _ _ => true
  | .lSfltsi _ _ => true
  | .lSfltu _ _ => true
  | .lSfltui _ _ => true
  | .lSfne _ _ => true
  | .lSfnei _ _ => true
  | .lSh _ _ _ => true
  | .lSll _ _ _ => true
  | .lSlli _ _ _ => true
  | .lSra _ _ _ => true
  | .lSrai _ _ _ => true
  | .lSrl _ _ _ => true
  | .lSrli _ _ _ => true
  | .lSub _ _ _ => true
  | .lSw _ _ _ => true
  | .lSwa _ _ _ => true
  | .lSys _ => true
  | .lTrap _ => true
  | .lXor _ _ _ => true
  | .lXori _ _ _ => true
  | .lfAddD _ _ _ => true
  | .lfAddS _ _ _ => true
  | .lfCust1D _ _ _ => true
  | .lfCust1S _ _ _ => true
  | .lfDivD _ _ _ => true
  | .lfDivS _ _ _ => true
  | .lfFtoiD _ _ => true
  | .lfFtoiS _ _ => true
  | .lfItofD _ _ => true
  | .lfItofS _ _ => true
  | .lfMaddD _ _ _ => true
  | .lfMaddS _ _ _ => true
  | .lfMulD _ _ _ => true
  | .lfMulS _ _ _ => true
  | .lfRemD _ _ _ => true
  | .lfRemS _ _ _ => true
  | .lfSfeqD _ _ => true
  | .lfSfeqS _ _ => true
  | .lfSfgeD _ _ => true
  | .lfSfgeS _ _ => true
  | .lfSfgtD _ _ => true
  | .lfSfgtS _ _ => true
  | .lfSfleD _ _ => true
  | .lfSfleS _ _ => true
  | .lfSfltD _ _ => true
  | .lfSfltS _ _ => true
  | .lfSfneD _ _ => true
  | .lfSfneS _ _ => true
  | .lfSubD _ _ _ => true
  | .lfSubS _ _ _ => true
  | .lvAddB _ _ _ => true
  | .lvAddH _ _ _ => true
  | .lvAddsB _ _ _ => true
  | .lvAddsH _ _ _ => true
  | .lvAdduB _ _ _ => true
  | .lvAdduH _ _ _ => true
  | .lvAddusB _ _ _ => true
  | .lvAddusH _ _ _ => true
  | .lvAllEqB _ _ _ => true
  | .lvAllEqH _ _ _ => true
  | .lvAllGeB _ _ _ => true
  | .lvAllGeH _ _ _ => true
  | .lvAllGtB _ _ _ => true
  | .lvAllGtH _ _ _ => true
  | .lvAllLeB _ _ _ => true
  | .lvAllLeH _ _ _ => true
  | .lvAllLtB _ _ _ => true
  | .lvAllLtH _ _ _ => true
  | .lvAllNeB _ _ _ => true
  | .lvAllNeH _ _ _ => true
  | .lvAnd _ _ _ => true
  | .lvAnyEqB _ _ _ => true
  | .lvAnyEqH _ _ _ => true
  | .lvAnyGeB _ _ _ => true
  | .lvAnyGeH _ _ _ => true
  | .lvAnyGtB _ _ _ => true
  | .lvAnyGtH _ _ _ => true
  | .lvAnyLeB _ _ _ => true
  | .lvAnyLeH _ _ _ => true
  | .lvAnyLtB _ _ _ => true
  | .lvAnyLtH _ _ _ => true
  | .lvAnyNeB _ _ _ => true
  | .lvAnyNeH _ _ _ => true
  | .lvAvgB _ _ _ => true
  | .lvAvgH _ _ _ => true
  | .lvCmpEqB _ _ _ => true
  | .lvCmpEqH _ _ _ => true
  | .lvCmpGeB _ _ _ => true
  | .lvCmpGeH _ _ _ => true
  | .lvCmpGtB _ _ _ => true
  | .lvCmpGtH _ _ _ => true
  | .lvCmpLeB _ _ _ => true
  | .lvCmpLeH _ _ _ => true
  | .lvCmpLtB _ _ _ => true
  | .lvCmpLtH _ _ _ => true
  | .lvCmpNeB _ _ _ => true
  | .lvCmpNeH _ _ _ => true
  | .lvCust1 _ _ => true
  | .lvCust2 _ _ => true
  | .lvCust3 _ _ => true
  | .lvCust4 _ _ => true
  | .lvMaddsH _ _ _ => true
  | .lvMaxB _ _ _ => true
  | .lvMaxH _ _ _ => true
  | .lvMergeB _ _ _ => true
  | .lvMergeH _ _ _ => true
  | .lvMinB _ _ _ => true
  | .lvMinH _ _ _ => true
  | .lvMsubsH _ _ _ => true
  | .lvMulsH _ _ _ => true
  | .lvNand _ _ _ => true
  | .lvNor _ _ _ => true
  | .lvOr _ _ _ => true
  | .lvPackB _ _ _ => true
  | .lvPackH _ _ _ => true
  | .lvPacksB _ _ _ => true
  | .lvPacksH _ _ _ => true
  | .lvPackusB _ _ _ => true
  | .lvPackusH _ _ _ => true
  | .lvPermN _ _ _ => true
  | .lvRlB _ _ _ => true
  | .lvRlH _ _ _ => true
  | .lvSll _ _ _ => true
  | .lvSllB _ _ _ => true
  | .lvSllH _ _ _ => true
  | .lvSraB _ _ _ => true
  | .lvSraH _ _ _ => true
  | .lvSrl _ _ _ => true
  | .lvSrlB _ _ _ => true
  | .lvSrlH _ _ _ => true
  | .lvSubB _ _ _ => true
  | .lvSubH _ _ _ => true
  | .lvSubsB _ _ _ => true
  | .lvSubsH _ _ _ => true
  | .lvSubuB _ _ _ => true
  | .lvSubuH _ _ _ => true
  | .lvSubusB _ _ _ => true
  | .lvSubusH _ _ _ => true
  | .lvUnpackB _ _ _ => true
  | .lvUnpackH _ _ _ => true
  | .lvXor _ _ _ => true

end Sys2Proof
end

