-- ==== Sys2Proof/Machine/CompareBranch.lean ====
section
/-! DEFINITION. The twenty integer compares and the branches and jumps (R180 to R218). -/

namespace Sys2Proof.Machine

/-- A compare: `SR[F]` is whether the relation holds, and nothing else changes (R200). -/
def setFlag (s : State) (holds : Bool) : Outcome := finish (s.setF holds)

/-! ### Compares -/

/-- `l.sfeq` (R180). -/
def execLSfeq (rA rB : RegNum) (s : State) : Outcome := setFlag s ((s.reg rA) == (s.reg rB))

/-- `l.sfeqi` (R181). -/
def execLSfeqi (rA : RegNum) (imm : BitVec 16) (s : State) : Outcome :=
  setFlag s ((s.reg rA) == (immSigned s imm))

/-- `l.sfges` (R182). -/
def execLSfges (rA rB : RegNum) (s : State) : Outcome :=
  setFlag s (decide ((s.reg rA).toInt ≥ (s.reg rB).toInt))

/-- `l.sfgesi` (R183). -/
def execLSfgesi (rA : RegNum) (imm : BitVec 16) (s : State) : Outcome :=
  setFlag s (decide ((s.reg rA).toInt ≥ (immSigned s imm).toInt))

/-- `l.sfgeu` (R184). -/
def execLSfgeu (rA rB : RegNum) (s : State) : Outcome :=
  setFlag s (decide ((s.reg rA).toNat ≥ (s.reg rB).toNat))

/-- `l.sfgeui` (R185). -/
def execLSfgeui (rA : RegNum) (imm : BitVec 16) (s : State) : Outcome :=
  setFlag s (decide ((s.reg rA).toNat ≥ (immSigned s imm).toNat))

/-- `l.sfgts` (R186). -/
def execLSfgts (rA rB : RegNum) (s : State) : Outcome :=
  setFlag s (decide ((s.reg rA).toInt > (s.reg rB).toInt))

/-- `l.sfgtsi` (R187). -/
def execLSfgtsi (rA : RegNum) (imm : BitVec 16) (s : State) : Outcome :=
  setFlag s (decide ((s.reg rA).toInt > (immSigned s imm).toInt))

/-- `l.sfgtu` (R188). -/
def execLSfgtu (rA rB : RegNum) (s : State) : Outcome :=
  setFlag s (decide ((s.reg rA).toNat > (s.reg rB).toNat))

/-- `l.sfgtui` (R189). -/
def execLSfgtui (rA : RegNum) (imm : BitVec 16) (s : State) : Outcome :=
  setFlag s (decide ((s.reg rA).toNat > (immSigned s imm).toNat))

/-- `l.sfles` (R190). -/
def execLSfles (rA rB : RegNum) (s : State) : Outcome :=
  setFlag s (decide ((s.reg rA).toInt ≤ (s.reg rB).toInt))

/-- `l.sflesi` (R191). -/
def execLSflesi (rA : RegNum) (imm : BitVec 16) (s : State) : Outcome :=
  setFlag s (decide ((s.reg rA).toInt ≤ (immSigned s imm).toInt))

/-- `l.sfleu` (R192). -/
def execLSfleu (rA rB : RegNum) (s : State) : Outcome :=
  setFlag s (decide ((s.reg rA).toNat ≤ (s.reg rB).toNat))

/-- `l.sfleui` (R193). -/
def execLSfleui (rA : RegNum) (imm : BitVec 16) (s : State) : Outcome :=
  setFlag s (decide ((s.reg rA).toNat ≤ (immSigned s imm).toNat))

/-- `l.sflts` (R194). -/
def execLSflts (rA rB : RegNum) (s : State) : Outcome :=
  setFlag s (decide ((s.reg rA).toInt < (s.reg rB).toInt))

/-- `l.sfltsi` (R195). -/
def execLSfltsi (rA : RegNum) (imm : BitVec 16) (s : State) : Outcome :=
  setFlag s (decide ((s.reg rA).toInt < (immSigned s imm).toInt))

/-- `l.sfltu` (R196). -/
def execLSfltu (rA rB : RegNum) (s : State) : Outcome :=
  setFlag s (decide ((s.reg rA).toNat < (s.reg rB).toNat))

/-- `l.sfltui` (R197). -/
def execLSfltui (rA : RegNum) (imm : BitVec 16) (s : State) : Outcome :=
  setFlag s (decide ((s.reg rA).toNat < (immSigned s imm).toNat))

/-- `l.sfne` (R198). -/
def execLSfne (rA rB : RegNum) (s : State) : Outcome := setFlag s ((s.reg rA) != (s.reg rB))

/-- `l.sfnei` (R199). -/
def execLSfnei (rA : RegNum) (imm : BitVec 16) (s : State) : Outcome :=
  setFlag s ((s.reg rA) != (immSigned s imm))

/-! ### Branches and jumps -/

/-- A conditional branch (R201): refused in a delay slot (R217). -/
def branchIf (s : State) (taken : Bool) (n : BitVec 26) : Outcome :=
  outsideSlot s (if taken then .next (s.takeJump (branchTarget s n)) else finish s)

/-- A jump that links: the return address goes to r9, then the jump is taken (R205, R206). -/
def jumpAndLink (s : State) (t : BitVec 64) : Outcome :=
  outsideSlot s (.next ((s.setReg linkReg (linkAddr s)).takeJump t))

/-- `l.bf` (R202). -/
def execLBf (n : BitVec 26) (s : State) : Outcome := branchIf s s.flagF n

/-- `l.bnf` (R203). -/
def execLBnf (n : BitVec 26) (s : State) : Outcome := branchIf s (!s.flagF) n

/-- `l.j` (R204). -/
def execLJ (n : BitVec 26) (s : State) : Outcome := outsideSlot s (.next (s.takeJump (branchTarget s n)))

/-- `l.jal` (R205). -/
def execLJal (n : BitVec 26) (s : State) : Outcome := jumpAndLink s (branchTarget s n)

/-- `l.jalr` (R206). `l.jalr r9` is refused (R214). -/
def execLJalr (rB : RegNum) (s : State) : Outcome :=
  if rB = linkReg then .refused .jalrLinkRegister else jumpAndLink s (registerTarget s rB)

/-- `l.jr` (R207). -/
def execLJr (rB : RegNum) (s : State) : Outcome := outsideSlot s (.next (s.takeJump (registerTarget s rB)))

end Sys2Proof.Machine
end

