-- ==== Sys2Proof/Machine/Fp.lean ====
section
/-! DEFINITION. The `FP` record of R300: its default, IEEE 754 binary32 and binary64 on bit patterns held as
numbers, and the choice between it and another record. A finite value is counted in units of the format's least positive value, so that every
operation is exact arithmetic on naturals and integers, rounded once at the end. -/

namespace Sys2Proof.Machine

/-- A binary interchange format: the widths of its fields and the bias of its exponent. -/
structure FpFormat where
  width : Nat
  frac  : Nat
  emax  : Nat
  bias  : Nat
  deriving DecidableEq, Repr

/-- binary32 and binary64 (R300). -/
def fpSingle : FpFormat := ⟨32, 23, 255, 127⟩
def fpDouble : FpFormat := ⟨64, 52, 2047, 1023⟩

/-- The power of two by which the number 1 exceeds the unit. -/
def FpFormat.unit (f : FpFormat) : Nat := f.bias - 1 + f.frac

/-- The fields of a pattern. -/
def fpNeg (f : FpFormat) (x : Nat) : Bool := x / 2 ^ (f.width - 1) % 2 == 1
def fpExp (f : FpFormat) (x : Nat) : Nat := x / 2 ^ f.frac % (f.emax + 1)
def fpFrac (f : FpFormat) (x : Nat) : Nat := x % 2 ^ f.frac

def fpIsNan (f : FpFormat) (x : Nat) : Bool := fpExp f x == f.emax && fpFrac f x != 0
def fpIsInf (f : FpFormat) (x : Nat) : Bool := fpExp f x == f.emax && fpFrac f x == 0
/-- A signalling NaN has the top fraction bit clear. -/
def fpIsSnan (f : FpFormat) (x : Nat) : Bool := fpIsNan f x && fpFrac f x / 2 ^ (f.frac - 1) == 0
def fpIsZero (f : FpFormat) (x : Nat) : Bool := fpExp f x == 0 && fpFrac f x == 0

/-- The magnitude of a finite pattern, in units. -/
def fpMag (f : FpFormat) (x : Nat) : Nat :=
  if fpExp f x = 0 then fpFrac f x else (fpFrac f x + 2 ^ f.frac) * 2 ^ (fpExp f x - 1)

/-- The value of a finite pattern, in units. -/
def fpVal (f : FpFormat) (x : Nat) : Int := if fpNeg f x then -(fpMag f x : Int) else fpMag f x

/-- A pattern from its sign and the bits of its magnitude. -/
def fpPattern (f : FpFormat) (neg : Bool) (mag : Nat) : Nat := (if neg then 2 ^ (f.width - 1) else 0) + mag

/-- The magnitude bits of infinity; those of the largest finite number are one less. -/
def fpInfMag (f : FpFormat) : Nat := f.emax * 2 ^ f.frac

/-! The flags of R300, as bits 11:3 of FPCSR. -/

def flOVF : BitVec 9 := 0x001#9
def flUNF : BitVec 9 := 0x002#9
def flSNF : BitVec 9 := 0x004#9
def flQNF : BitVec 9 := 0x008#9
def flZF : BitVec 9 := 0x010#9
def flIXF : BitVec 9 := 0x020#9
def flIVF : BitVec 9 := 0x040#9
def flINF : BitVec 9 := 0x080#9
def flDZF : BitVec 9 := 0x100#9

/-- The flag `fl` if it is raised. -/
def flagIf (raised : Bool) (fl : BitVec 9) : BitVec 9 := if raised then fl else 0#9

/-- The rounding modes (R56, R300). -/
inductive Rounding where
  | nearest
  | zero
  | up
  | down
  deriving DecidableEq, Repr

/-- `FP.rm`: FPCSR[2:1]. -/
def roundingOf (fpcsr : BitVec 32) : Rounding :=
  match (fpcsr.extractLsb' 1 2).toNat with
  | 0 => .nearest
  | 1 => .zero
  | 2 => .up
  | _ => .down

/-- Whether a magnitude with quotient `q`, remainder `r` of `den` is rounded away from zero. -/
def roundsUp (rm : Rounding) (neg : Bool) (q r den : Nat) : Bool :=
  match rm with
  | .nearest => decide (den < 2 * r) || (decide (den = 2 * r) && q % 2 == 1)
  | .zero => false
  | .up => !neg && r != 0
  | .down => neg && r != 0

/-- The integer nearest `num / den` in the rounding mode. -/
def roundQuotient (rm : Rounding) (neg : Bool) (num den : Nat) : Nat :=
  num / den + (roundsUp rm neg (num / den) (num % den) den).toNat

/-- The power of two dropped when a magnitude of `f0` whole units is rounded to the precision. -/
def fpShift (f : FpFormat) (f0 : Nat) : Nat := if f0 < 2 ^ (f.frac + 1) then 0 else Nat.log2 f0 - f.frac

/-- The magnitude bits nearest `num / den` units, with an unbounded exponent. -/
def roundedMag (f : FpFormat) (rm : Rounding) (neg : Bool) (num den : Nat) : Nat :=
  fpShift f (num / den) * 2 ^ f.frac + roundQuotient rm neg num (den * 2 ^ fpShift f (num / den))

/-- Whether `num / den` units is not a number of the format (with an unbounded exponent). -/
def isInexact (f : FpFormat) (num den : Nat) : Bool := num % (den * 2 ^ fpShift f (num / den)) != 0

/-- Whether the value is tiny: below the least normal number before rounding, or, under
`fpTinyAfter`, after rounding with an unbounded exponent. -/
def isTiny (f : FpFormat) (tinyAfter : Bool) (rm : Rounding) (neg : Bool) (num den : Nat) : Bool :=
  decide (num < den * 2 ^ f.frac) &&
    (!tinyAfter || decide (roundQuotient rm neg (2 * num) den < 2 ^ (f.frac + 1)))

/-- What an operation delivers: a pattern, the flags raised, and whether a free value was used. -/
structure FpResult where
  bits  : Nat
  flags : BitVec 9
  drew  : Bool
  deriving DecidableEq, Repr

/-- Whether an overflow delivers infinity rather than the largest finite number. -/
def overflowsToInf (rm : Rounding) (neg : Bool) : Bool :=
  match rm with
  | .nearest => true
  | .zero => false
  | .up => !neg
  | .down => neg

/-- The correctly rounded pattern of `num / den` units with sign `neg`, and OVF, UNF, IXF. -/
def fpRound (f : FpFormat) (tinyAfter : Bool) (rm : Rounding) (neg : Bool) (num den : Nat) : FpResult :=
  let mag := roundedMag f rm neg num den
  if fpInfMag f ≤ mag then
    ⟨fpPattern f neg (if overflowsToInf rm neg then fpInfMag f else fpInfMag f - 1), flOVF ||| flIXF, false⟩
  else
    let inexact := isInexact f num den
    ⟨fpPattern f neg mag,
      flagIf inexact flIXF ||| flagIf (inexact && isTiny f tinyAfter rm neg num den) flUNF, false⟩

/-- A quiet NaN whose sign and payload are free (`FP.nan`, U12). -/
def freeNan (f : FpFormat) (free : BitVec 64) : Nat :=
  fpPattern f (free.getLsbD 63) (fpInfMag f + 2 ^ (f.frac - 1) + free.toNat % 2 ^ (f.frac - 1))

/-- The result of an invalid operation (R300). -/
def fpInvalid (f : FpFormat) (free : BitVec 64) : FpResult := ⟨freeNan f free, flIVF, true⟩

/-- The result of an operation with a NaN operand: a quiet NaN, IVF where one is signalling. -/
def fpNanOperand (f : FpFormat) (free : BitVec 64) (signalling : Bool) : FpResult :=
  ⟨freeNan f free, flagIf signalling flIVF, true⟩

/-- An exact result. -/
def fpExact (bits : Nat) : FpResult := ⟨bits, 0#9, false⟩

/-- The sign of a sum or difference that is exactly zero (R303): that of both operands where they
agree, otherwise minus only when rounding toward minus infinity. -/
def zeroSumNeg (rm : Rounding) (na nb : Bool) : Bool := if na = nb then na else rm == .down

/-- The negative of a pattern. -/
def fpNegate (f : FpFormat) (x : Nat) : Nat :=
  fpPattern f (!fpNeg f x) (x % 2 ^ (f.width - 1))

/-- `FP.add` (R300, R303). -/
def fpAdd (f : FpFormat) (c : Config) (rm : Rounding) (free : BitVec 64) (a b : Nat) : FpResult :=
  if fpIsNan f a || fpIsNan f b then fpNanOperand f free (fpIsSnan f a || fpIsSnan f b)
  else if fpIsInf f a then
    if fpIsInf f b && fpNeg f a != fpNeg f b then fpInvalid f free else fpExact a
  else if fpIsInf f b then fpExact b
  else
    let sum := fpVal f a + fpVal f b
    if sum = 0 then fpExact (fpPattern f (zeroSumNeg rm (fpNeg f a) (fpNeg f b)) 0)
    else fpRound f c.fpTinyAfter rm (decide (sum < 0)) sum.natAbs 1

/-- `FP.sub` (R300, R331): the sum with the negative, a NaN operand taken as it is. -/
def fpSub (f : FpFormat) (c : Config) (rm : Rounding) (free : BitVec 64) (a b : Nat) : FpResult :=
  fpAdd f c rm free a (fpNegate f b)

/-- `FP.mul` (R300, R315). -/
def fpMul (f : FpFormat) (c : Config) (rm : Rounding) (free : BitVec 64) (a b : Nat) : FpResult :=
  let neg := fpNeg f a != fpNeg f b
  if fpIsNan f a || fpIsNan f b then fpNanOperand f free (fpIsSnan f a || fpIsSnan f b)
  else if fpIsInf f a || fpIsInf f b then
    if fpIsZero f a || fpIsZero f b then fpInvalid f free else fpExact (fpPattern f neg (fpInfMag f))
  else if fpIsZero f a || fpIsZero f b then fpExact (fpPattern f neg 0)
  else fpRound f c.fpTinyAfter rm neg (fpMag f a * fpMag f b) (2 ^ f.unit)

/-- `FP.div` (R300, R307). -/
def fpDiv (f : FpFormat) (c : Config) (rm : Rounding) (free : BitVec 64) (a b : Nat) : FpResult :=
  let neg := fpNeg f a != fpNeg f b
  if fpIsNan f a || fpIsNan f b then fpNanOperand f free (fpIsSnan f a || fpIsSnan f b)
  else if fpIsInf f a then
    if fpIsInf f b then fpInvalid f free else fpExact (fpPattern f neg (fpInfMag f))
  else if fpIsInf f b then fpExact (fpPattern f neg 0)
  else if fpIsZero f b then
    if fpIsZero f a then fpInvalid f free else ⟨fpPattern f neg (fpInfMag f), flDZF, false⟩
  else if fpIsZero f a then fpExact (fpPattern f neg 0)
  else fpRound f c.fpTinyAfter rm neg (fpMag f a * 2 ^ f.unit) (fpMag f b)

/-- The magnitude of the remainder in units and whether its sign is turned against that of the
dividend (R300, `FP_REM_KIND`): the quotient is rounded to nearest even, or truncated. -/
def remMag (k : RemKind) (a b : Nat) : Nat × Bool :=
  match k with
  | .trunc => (a % b, false)
  | .ieee => if roundsUp .nearest false (a / b) (a % b) b then (b - a % b, true) else (a % b, false)

/-- `FP.rem` (R300, R317); it is exact. A zero result has the sign of `a`. -/
def fpRem (f : FpFormat) (c : Config) (rm : Rounding) (free : BitVec 64) (a b : Nat) : FpResult :=
  if fpIsNan f a || fpIsNan f b then fpNanOperand f free (fpIsSnan f a || fpIsSnan f b)
  else if fpIsInf f a || fpIsZero f b then fpInvalid f free
  else if fpIsInf f b then fpExact a
  else
    let r := remMag c.fpRemKind (fpMag f a) (fpMag f b)
    if r.1 = 0 then fpExact (fpPattern f (fpNeg f a) 0)
    else fpRound f c.fpTinyAfter rm (fpNeg f a != r.2) r.1 1

/-- `FP.itof` (R300, R311). Zero converts to `+0`. -/
def fpOfInt (f : FpFormat) (c : Config) (rm : Rounding) (i : Int) : FpResult :=
  if i = 0 then fpExact 0
  else fpRound f c.fpTinyAfter rm (decide (i < 0)) (i.natAbs * 2 ^ f.unit) 1

/-- `FP.ftoi` (R300, R309): to a signed integer of the operand's width. A NaN, an infinity, or a value
out of range after rounding delivers a free integer and IVF. -/
def fpToInt (f : FpFormat) (rm : Rounding) (free : BitVec 64) (a : Nat) : FpResult :=
  let mag := roundQuotient rm (fpNeg f a) (fpMag f a) (2 ^ f.unit)
  let i : Int := if fpNeg f a then -(mag : Int) else mag
  if fpIsNan f a || fpIsInf f a || signedOverflow f.width i then ⟨free.toNat % 2 ^ f.width, flIVF, true⟩
  else ⟨(BitVec.ofInt f.width i).toNat, flagIf (fpMag f a % 2 ^ f.unit != 0) flIXF, false⟩

/-- Where an infinity or a finite pattern stands: infinities beyond every finite value. -/
def fpRank (f : FpFormat) (x : Nat) : Int :=
  if fpIsInf f x then (if fpNeg f x then -(2 ^ (f.emax + f.frac)) else 2 ^ (f.emax + f.frac)) else fpVal f x

/-- `FP.cmp` (R300): `-0` equals `+0`; `unordered` when either operand is a NaN. -/
def fpCompare (f : FpFormat) (a b : Nat) : FpOrder :=
  if fpIsNan f a || fpIsNan f b then .unordered
  else if fpRank f a < fpRank f b then .lt
  else if fpRank f b < fpRank f a then .gt
  else .eq

/-- The result-class flags of a delivered pattern (R300). -/
def classFlags (f : FpFormat) (x : Nat) : BitVec 9 :=
  flagIf (fpIsSnan f x) flSNF ||| flagIf (fpIsNan f x && !fpIsSnan f x) flQNF |||
    flagIf (fpIsZero f x) flZF ||| flagIf (fpIsInf f x) flINF

/-- A floating-point result with its class flags, where `FP_CLASS_FLAGS` is true (R300). -/
def withClass (f : FpFormat) (c : Config) (r : FpResult) : FpResult :=
  if c.fpClassFlags then { r with flags := r.flags ||| classFlags f r.bits } else r

/-! ### The record (R5, R300) -/

/-- The default members. The result of `FP.ftoi` is an integer, so it has no class flags (R300, R309). -/
def fpIeee (o : FpOp) (f : FpFormat) (c : Config) (rm : Rounding) (free : BitVec 64) (a b : Nat) : FpResult :=
  match o with
  | .add => withClass f c (fpAdd f c rm free a b)
  | .sub => withClass f c (fpSub f c rm free a b)
  | .mul => withClass f c (fpMul f c rm free a b)
  | .div => withClass f c (fpDiv f c rm free a b)
  | .rem => withClass f c (fpRem f c rm free a b)
  | .itof => withClass f c (fpOfInt f c rm (BitVec.ofNat f.width a).toInt)
  | .ftoi => fpToInt f rm free a

/-- The result-class flags SNF, QNF, ZF and INF. -/
def flClass : BitVec 9 := flSNF ||| flQNF ||| flZF ||| flINF

/-- The members of the record number `k`: what they deliver, the class flags only under `FP_CLASS_FLAGS`. -/
def fpOther (k : Nat) (o : FpOp) (f : FpFormat) (c : Config) (fpcsr : BitVec 32) (a b : Nat) : FpResult :=
  let r := Config.fpOperation k o f.width fpcsr (BitVec.ofNat 64 a) (BitVec.ofNat 64 b)
  ⟨r.1.toNat % 2 ^ f.width, if c.fpClassFlags then r.2 else r.2 &&& ~~~flClass, false⟩

/-- A member of `FP` that delivers a result; `FP.rm` is FPCSR[2:1] by default. -/
def fpApply (o : FpOp) (f : FpFormat) (c : Config) (fpcsr : BitVec 32) (free : BitVec 64) (a b : Nat) : FpResult :=
  match c.fp with
  | .ieee => fpIeee o f c (roundingOf fpcsr) free a b
  | .other k => fpOther k o f c fpcsr a b

/-- `FP.cmp`. -/
def fpOrder (f : FpFormat) (c : Config) (a b : Nat) : FpOrder :=
  match c.fp with
  | .ieee => fpCompare f a b
  | .other k => Config.fpOrder k f.width (BitVec.ofNat 64 a) (BitVec.ofNat 64 b)

end Sys2Proof.Machine
end

