-- ==== Sys2Proof/Machine/System.lean ====
section
/-! DEFINITION. System, synchronisation and custom instructions (R270 to R288). -/

namespace Sys2Proof

/-- The function number `k` that an implementation makes of custom words: what the word does in a state, of
which nothing is known (R114, log entry 19). -/
opaque Config.customFunction (k : Nat) (w : InsnWord) (s : Machine.State) : CustomAction

end Sys2Proof

namespace Sys2Proof.Machine

/-- `sync_fetch`: nothing fetched before is used again, so no address is stale (R90, R284). -/
def syncFetch (s : State) : State := { s with stale := [] }

/-- What `CustomSem` makes of a word: the first case that matches decides, and a word that none matches
is refused (R114). -/
def customEffect (rules : List CustomRule) (w : InsnWord) : CustomEffect :=
  match rules.find? fun r => w &&& r.mask == r.pattern with
  | some r => r.effect
  | none => .refuse

/-- The exception a custom instruction raises. -/
def customExc (x : CustomException) : Exc :=
  match x with
  | .illegalInstruction => .illegalInstruction
  | .range => .range
  | .systemCall => .systemCall
  | .floatingPoint => .floatingPoint
  | .trap => .trap

/-- One thing a custom instruction does, and then `k`. A special register is written as `l.mtspr` writes it, in
user mode under `USER_SPR_POLICY` (R282, R288); an access is checked as any other (R83), and ends the
instruction where a check fails. -/
def customWrite (s : State) (x : CustomWrite) (k : State → Outcome) : Outcome :=
  match x with
  | .reg r v => k (s.setReg r (v.setWidth s.width))
  | .flagF b => k (s.setF b)
  | .flagCY b => k (s.setCY b)
  | .flagOV b => k (s.setOV b)
  | .acc v => k (s.setAcc v)
  | .fpFlags fl => k { s with fpcsr := s.fpcsr ||| (fl ++ 0#3).setWidth 32 }
  | .fpmadd v => k { s with fpmaddhi := v.extractLsb' 32 32, fpmaddlo := v.extractLsb' 0 32 }
  | .vmac hi lo => k { s with vmachi := hi, vmaclo := lo }
  | .spr a v =>
    privileged s (k s) <|
      match sprWrite s a v with
      | .ok t => k t
      | .error r => .refused r
  | .load ea size =>
    match access s .load (2 ^ size.val) (s.trunc ea) with
    | .ok _ => k s
    | .error e => raise s e
  | .store ea size v =>
    match access s .store (2 ^ size.val) (s.trunc ea) with
    | .ok pa => k (storeDatum s pa (2 ^ size.val) v.toNat)
    | .error e => raise s e

/-- How a custom instruction ends; a jump has its delay slot as any other, and is refused in one (R201, R217). -/
def customEnd (s : State) (e : CustomEnd) : Outcome :=
  match e with
  | .advance => finish s
  | .jump t => outsideSlot s (.next (s.takeJump (s.trunc t)))
  | .raise x => raise s (customExc x)

/-- The writes of a custom instruction in their order, and its end. -/
def customRun (ws : List CustomWrite) (e : CustomEnd) (s : State) : Outcome :=
  match ws with
  | [] => customEnd s e
  | x :: rest => customWrite s x (customRun rest e)

/-- What a value of `CustomSem` does. -/
def customAct (a : CustomAction) (s : State) : Outcome :=
  match a with
  | .refuse => .refused .customUndefined
  | .run ws e => customRun ws e s

/-- A custom instruction: `CustomSem` of its word (R114, R272). -/
def customOp (w : InsnWord) (s : State) : Outcome :=
  match customEffect s.cfg.customSem w with
  | .refuse => .refused .customUndefined
  | .illegal => raise s .illegalInstruction
  | .nop => finish s
  | .compute =>
    finish (s.setReg (fieldD w)
      ((Config.customResult w ((s.reg (fieldA w)).setWidth 64) ((s.reg (fieldB w)).setWidth 64)).setWidth s.width))
  | .function k => customAct (Config.customFunction k w s) s

/-- `k`, unless bits of a custom word are set that the configuration makes reserved (R104, R111; log
entry 29). -/
def whenUnreserved (mnemonic : String) (bits : InsnWord) (k : Outcome) : Outcome :=
  if bits = 0#32 then k else .refused (.reservedBits mnemonic)

/-- A custom instruction of an optional unit: the reserved bits, then the unit, then `CustomSem` (the order of
R115). -/
def unitCustom (mnemonic : String) (reserved : InsnWord) (present : Bool) (w : InsnWord) (s : State) : Outcome :=
  whenUnreserved mnemonic (w &&& reserved) (whenPresent present s (customOp w s))

/-- The end of `l.mfspr`: the word, zero-extended, to `x[rD]` (R280, D34). -/
def regResultSpr (s : State) (rD : RegNum) (v : BitVec 32) : Outcome := finish (s.setReg rD v)

/-- `l.csync` (R271). -/
def execLCsync (s : State) : Outcome := finish (syncFetch s)

/-- `l.cust1` (R272). -/
def execLCust1 (custom : BitVec 26) (s : State) : Outcome := customOp (encode (.lCust1 custom)) s

/-- `l.cust2` (R273). -/
def execLCust2 (custom : BitVec 26) (s : State) : Outcome := customOp (encode (.lCust2 custom)) s

/-- `l.cust3` (R274). -/
def execLCust3 (custom : BitVec 26) (s : State) : Outcome := customOp (encode (.lCust3 custom)) s

/-- `l.cust4` (R275). -/
def execLCust4 (custom : BitVec 26) (s : State) : Outcome := customOp (encode (.lCust4 custom)) s

/-- `l.cust5` (R276). -/
def execLCust5 (rD rA rB : RegNum) (l : BitVec 6) (k : BitVec 5) (s : State) : Outcome :=
  customOp (encode (.lCust5 rD rA rB l k)) s

/-- `l.cust6` (R277). -/
def execLCust6 (custom : BitVec 26) (s : State) : Outcome := customOp (encode (.lCust6 custom)) s

/-- `l.cust7` (R278). -/
def execLCust7 (custom : BitVec 26) (s : State) : Outcome := customOp (encode (.lCust7 custom)) s

/-- `l.cust8` (R279). -/
def execLCust8 (custom : BitVec 26) (s : State) : Outcome := customOp (encode (.lCust8 custom)) s

/-- `l.mfspr` (R280). -/
def execLMfspr (rD rA : RegNum) (imm : BitVec 16) (s : State) : Outcome :=
  privileged s (regResultSpr s rD 0#32) (regResultSpr s rD (sprRead s (sprAddr s rA imm)))

/-- `l.msync` (R281). -/
def execLMsync (s : State) : Outcome := finish s

/-- `l.mtspr` (R282). -/
def execLMtspr (rA rB : RegNum) (imm : BitVec 16) (s : State) : Outcome :=
  privileged s (finish s) <|
    match sprWrite s (sprAddr s rA imm) ((s.reg rB).setWidth 32) with
    | .ok t => finish t
    | .error r => .refused r

/-- `l.nop` (R283). `K` has no effect (D37). -/
def execLNop (_imm : BitVec 16) (s : State) : Outcome := finish s

/-- `l.psync` (R284). -/
def execLPsync (s : State) : Outcome := finish (syncFetch s)

/-- `l.rfe` (R285). DESIGN CHOICE (log entry 30): R288 gives `ignore` for a read and a write of an SPR alone, and in
user mode under `ignore` the model lets `l.rfe` do nothing but advance. DEDUCED (log entry 23): the policy comes before the test
of the delay slot, the order of R285. -/
def execLRfe (s : State) : Outcome := privileged s (finish s) (outsideSlot s (returnFromException s))

/-- `l.sys` (R286). `K` is not recorded (D43). -/
def execLSys (_imm : BitVec 16) (s : State) : Outcome :=
  if s.ds.isSome then .refused .sysInDelaySlot else raise s .systemCall

/-- `l.trap` (R287). The trap is unconditional (C6) and `K` is not recorded
(D43). -/
def execLTrap (_imm : BitVec 16) (s : State) : Outcome :=
  if s.ds.isSome then .refused .sysInDelaySlot else raise s .trap

end Sys2Proof.Machine
end

