-- ==== Sys2Proof/Machine/Float.lean ====
section
/-! DEFINITION. The floating-point instructions over the `FP` record (R300 to R332). -/

namespace Sys2Proof.Machine

/-- Whether the `.s` and the `.d` instructions exist (R301). -/
def hasSingle (c : Config) : Bool := c.hasFpx32
def hasDouble (c : Config) : Bool := c.hasFpx64 && c.xlen == .x64

/-- The operand of a `.s` and of a `.d` instruction, as a number (R301). -/
def fpOperand (f : FpFormat) (s : State) (r : RegNum) : Nat := (s.reg r).toNat % 2 ^ f.width

/-- `FpDone` of R302, after the result is written: the flags are recorded, and raise when FPEE is
set. -/
def fpDone (s : State) (flags : BitVec 9) : Outcome :=
  let t := { s with fpcsr := s.fpcsr ||| (flags ++ 0#3).setWidth 32 }
  if s.fpcsr.getLsbD 0 && flags != 0#9 then raise t .floatingPoint else finish t

/-- A result goes to `x[rD]`, zero-extended, and its flags to `FpDone` (R301, R302). -/
def fpResult (s : State) (rD : RegNum) (r : FpResult) : Outcome :=
  let t := s.setReg rD (BitVec.ofNat 64 r.bits)
  fpDone (if r.drew then t.spend else t) r.flags

/-- A member of `FP` applied to two registers. -/
def fpArith (f : FpFormat) (o : FpOp) (s : State) (rD rA rB : RegNum) : Outcome :=
  fpResult s rD (fpApply o f s.cfg s.fpcsr s.free (fpOperand f s rA) (fpOperand f s rB))

/-- A conversion: a member of `FP` applied to one register (R309, R311). -/
def fpConvert (f : FpFormat) (o : FpOp) (s : State) (rD rA : RegNum) : Outcome :=
  fpResult s rD (fpApply o f s.cfg s.fpcsr s.free (fpOperand f s rA) 0)

/-- A floating-point compare: `SR[F]`; FPCSR only under `FP_CMP_FLAGS`, where a NaN operand sets IVF
(R302). It never raises. -/
def fpCompareOp (f : FpFormat) (holds : FpOrder → Bool) (s : State) (rA rB : RegNum) : Outcome :=
  let o := fpOrder f s.cfg (fpOperand f s rA) (fpOperand f s rB)
  let t := s.setF (holds o)
  finish (if s.cfg.fpCmpFlags && o == .unordered then { t with fpcsr := t.fpcsr ||| (flIVF ++ 0#3).setWidth 32 }
    else t)

/-- `lf.madd.*` (R313, R314): refused, illegal, or, under `free`, FPMADDHI and FPMADDLO become a free
sum and the flags are free. `rD` is not written (C18). -/
def fpMaddOp (s : State) : Outcome :=
  match s.cfg.fpMadd with
  | .refuse => .refused .fpMaddUndefined
  | .illegal => raise s .illegalInstruction
  | .free =>
    let v := s.free
    let t := s.spend
    fpDone { t with fpmaddhi := v.extractLsb' 32 32, fpmaddlo := v.extractLsb' 0 32 }.spend (t.free.setWidth 9)

/-- `lf.add.d` (R303). -/
def execLfAddD (rD rA rB : RegNum) (s : State) : Outcome :=
  whenPresent (hasDouble s.cfg) s (fpArith fpDouble .add s rD rA rB)

/-- `lf.add.s` (R304). -/
def execLfAddS (rD rA rB : RegNum) (s : State) : Outcome :=
  whenPresent (hasSingle s.cfg) s (fpArith fpSingle .add s rD rA rB)

/-- `lf.cust1.d` (R305). -/
def execLfCust1D (rA rB : RegNum) (custom : BitVec 12) (s : State) : Outcome :=
  unitCustom "lf.cust1.d" s.cfg.fcustReserved (hasDouble s.cfg) (encode (.lfCust1D rA rB custom)) s

/-- `lf.cust1.s` (R306). -/
def execLfCust1S (rA rB : RegNum) (custom : BitVec 12) (s : State) : Outcome :=
  unitCustom "lf.cust1.s" s.cfg.fcustReserved (hasSingle s.cfg) (encode (.lfCust1S rA rB custom)) s

/-- `lf.div.d` (R307). -/
def execLfDivD (rD rA rB : RegNum) (s : State) : Outcome :=
  whenPresent (hasDouble s.cfg) s (fpArith fpDouble .div s rD rA rB)

/-- `lf.div.s` (R308). -/
def execLfDivS (rD rA rB : RegNum) (s : State) : Outcome :=
  whenPresent (hasSingle s.cfg) s (fpArith fpSingle .div s rD rA rB)

/-- `lf.ftoi.d` (R309). -/
def execLfFtoiD (rD rA : RegNum) (s : State) : Outcome :=
  whenPresent (hasDouble s.cfg) s (fpConvert fpDouble .ftoi s rD rA)

/-- `lf.ftoi.s` (R310). -/
def execLfFtoiS (rD rA : RegNum) (s : State) : Outcome :=
  whenPresent (hasSingle s.cfg) s (fpConvert fpSingle .ftoi s rD rA)

/-- `lf.itof.d` (R311). -/
def execLfItofD (rD rA : RegNum) (s : State) : Outcome :=
  whenPresent (hasDouble s.cfg) s (fpConvert fpDouble .itof s rD rA)

/-- `lf.itof.s` (R312). -/
def execLfItofS (rD rA : RegNum) (s : State) : Outcome :=
  whenPresent (hasSingle s.cfg) s (fpConvert fpSingle .itof s rD rA)

/-- `lf.madd.d` (R313). -/
def execLfMaddD (_rD _rA _rB : RegNum) (s : State) : Outcome := whenPresent (hasDouble s.cfg) s (fpMaddOp s)

/-- `lf.madd.s` (R314). -/
def execLfMaddS (_rD _rA _rB : RegNum) (s : State) : Outcome := whenPresent (hasSingle s.cfg) s (fpMaddOp s)

/-- `lf.mul.d` (R315). -/
def execLfMulD (rD rA rB : RegNum) (s : State) : Outcome :=
  whenPresent (hasDouble s.cfg) s (fpArith fpDouble .mul s rD rA rB)

/-- `lf.mul.s` (R316). -/
def execLfMulS (rD rA rB : RegNum) (s : State) : Outcome :=
  whenPresent (hasSingle s.cfg) s (fpArith fpSingle .mul s rD rA rB)

/-- `lf.rem.d` (R317). -/
def execLfRemD (rD rA rB : RegNum) (s : State) : Outcome :=
  whenPresent (hasDouble s.cfg) s (fpArith fpDouble .rem s rD rA rB)

/-- `lf.rem.s` (R318). -/
def execLfRemS (rD rA rB : RegNum) (s : State) : Outcome :=
  whenPresent (hasSingle s.cfg) s (fpArith fpSingle .rem s rD rA rB)

/-- `lf.sfeq.d` (R319). -/
def execLfSfeqD (rA rB : RegNum) (s : State) : Outcome :=
  whenPresent (hasDouble s.cfg) s (fpCompareOp fpDouble (· == .eq) s rA rB)

/-- `lf.sfeq.s` (R320). -/
def execLfSfeqS (rA rB : RegNum) (s : State) : Outcome :=
  whenPresent (hasSingle s.cfg) s (fpCompareOp fpSingle (· == .eq) s rA rB)

/-- `lf.sfge.d` (R321). -/
def execLfSfgeD (rA rB : RegNum) (s : State) : Outcome :=
  whenPresent (hasDouble s.cfg) s (fpCompareOp fpDouble (fun o => o == .gt || o == .eq) s rA rB)

/-- `lf.sfge.s` (R322). -/
def execLfSfgeS (rA rB : RegNum) (s : State) : Outcome :=
  whenPresent (hasSingle s.cfg) s (fpCompareOp fpSingle (fun o => o == .gt || o == .eq) s rA rB)

/-- `lf.sfgt.d` (R323). -/
def execLfSfgtD (rA rB : RegNum) (s : State) : Outcome :=
  whenPresent (hasDouble s.cfg) s (fpCompareOp fpDouble (· == .gt) s rA rB)

/-- `lf.sfgt.s` (R324). -/
def execLfSfgtS (rA rB : RegNum) (s : State) : Outcome :=
  whenPresent (hasSingle s.cfg) s (fpCompareOp fpSingle (· == .gt) s rA rB)

/-- `lf.sfle.d` (R325). -/
def execLfSfleD (rA rB : RegNum) (s : State) : Outcome :=
  whenPresent (hasDouble s.cfg) s (fpCompareOp fpDouble (fun o => o == .lt || o == .eq) s rA rB)

/-- `lf.sfle.s` (R326). -/
def execLfSfleS (rA rB : RegNum) (s : State) : Outcome :=
  whenPresent (hasSingle s.cfg) s (fpCompareOp fpSingle (fun o => o == .lt || o == .eq) s rA rB)

/-- `lf.sflt.d` (R327). -/
def execLfSfltD (rA rB : RegNum) (s : State) : Outcome :=
  whenPresent (hasDouble s.cfg) s (fpCompareOp fpDouble (· == .lt) s rA rB)

/-- `lf.sflt.s` (R328). -/
def execLfSfltS (rA rB : RegNum) (s : State) : Outcome :=
  whenPresent (hasSingle s.cfg) s (fpCompareOp fpSingle (· == .lt) s rA rB)

/-- `lf.sfne.d` (R329). -/
def execLfSfneD (rA rB : RegNum) (s : State) : Outcome :=
  whenPresent (hasDouble s.cfg) s (fpCompareOp fpDouble (· != .eq) s rA rB)

/-- `lf.sfne.s` (R330). -/
def execLfSfneS (rA rB : RegNum) (s : State) : Outcome :=
  whenPresent (hasSingle s.cfg) s (fpCompareOp fpSingle (· != .eq) s rA rB)

/-- `lf.sub.d` (R331). -/
def execLfSubD (rD rA rB : RegNum) (s : State) : Outcome :=
  whenPresent (hasDouble s.cfg) s (fpArith fpDouble .sub s rD rA rB)

/-- `lf.sub.s` (R332). -/
def execLfSubS (rD rA rB : RegNum) (s : State) : Outcome :=
  whenPresent (hasSingle s.cfg) s (fpArith fpSingle .sub s rD rA rB)

end Sys2Proof.Machine
end

