-- ==== Sys2Proof/Machine/LoadStore.lean ====
section
/-! DEFINITION. Loads and stores, and the reserved pair `l.lwa`, `l.swa` (R220 to R233). -/

namespace Sys2Proof.Machine

/-- A load of `n` bytes (R220): the checks, then the datum, extended, to `x[rD]`. -/
def loadOp (n : Nat) (sign : Bool) (s : State) (rD rA : RegNum) (imm : BitVec 16) : Outcome :=
  match access s .load n (effectiveAddr s rA imm) with
  | .error e => raise s e
  | .ok pa =>
    let v := loadDatum s pa n
    finish (s.setReg rD (if sign then v.signExtend s.width else v.setWidth s.width))

/-- A store of `n` bytes (R220): the checks, then the low `8 n` bits of `x[rB]`. -/
def storeOp (n : Nat) (s : State) (rA rB : RegNum) (imm : BitVec 16) : Outcome :=
  match access s .store n (effectiveAddr s rA imm) with
  | .error e => raise s e
  | .ok pa => finish (storeDatum s pa n (s.reg rB).toNat)

/-- Whether the widths of `l.ld` and `l.sd` exist: `XLEN = 64` (R223, R230). -/
def hasDoubleWord (c : Config) : Bool := c.xlen == .x64

/-- `l.lbs` (R221). -/
def execLLbs (rD rA : RegNum) (imm : BitVec 16) (s : State) : Outcome := loadOp 1 true s rD rA imm

/-- `l.lbz` (R222). -/
def execLLbz (rD rA : RegNum) (imm : BitVec 16) (s : State) : Outcome := loadOp 1 false s rD rA imm

/-- `l.ld` (R223). -/
def execLLd (rD rA : RegNum) (imm : BitVec 16) (s : State) : Outcome :=
  whenPresent (hasDoubleWord s.cfg) s (loadOp 8 false s rD rA imm)

/-- `l.lhs` (R224). -/
def execLLhs (rD rA : RegNum) (imm : BitVec 16) (s : State) : Outcome := loadOp 2 true s rD rA imm

/-- `l.lhz` (R225). -/
def execLLhz (rD rA : RegNum) (imm : BitVec 16) (s : State) : Outcome := loadOp 2 false s rD rA imm

/-- `l.lwa` (R226). The reservation is on the physical address (R86). -/
def execLLwa (rD rA : RegNum) (imm : BitVec 16) (s : State) : Outcome :=
  whenPresent s.cfg.hasLwa s <|
    match access s .load 4 (effectiveAddr s rA imm) with
    | .error e => raise s e
    | .ok pa => finish { s.setReg rD ((loadDatum s pa 4).setWidth s.width) with resv := some pa }

/-- `l.lws` (R227). -/
def execLLws (rD rA : RegNum) (imm : BitVec 16) (s : State) : Outcome := loadOp 4 true s rD rA imm

/-- `l.lwz` (R228). -/
def execLLwz (rD rA : RegNum) (imm : BitVec 16) (s : State) : Outcome := loadOp 4 false s rD rA imm

/-- `l.sb` (R229). -/
def execLSb (rA rB : RegNum) (imm : BitVec 16) (s : State) : Outcome := storeOp 1 s rA rB imm

/-- `l.sd` (R230). -/
def execLSd (rA rB : RegNum) (imm : BitVec 16) (s : State) : Outcome :=
  whenPresent (hasDoubleWord s.cfg) s (storeOp 8 s rA rB imm)

/-- `l.sh` (R231). -/
def execLSh (rA rB : RegNum) (imm : BitVec 16) (s : State) : Outcome := storeOp 2 s rA rB imm

/-- `l.sw` (R232). -/
def execLSw (rA rB : RegNum) (imm : BitVec 16) (s : State) : Outcome := storeOp 4 s rA rB imm

/-- `l.swa` (R233). The checks come first; the word is stored iff the reservation is on it
(R87). -/
def execLSwa (rA rB : RegNum) (imm : BitVec 16) (s : State) : Outcome :=
  whenPresent s.cfg.hasLwa s <|
    match access s .store 4 (effectiveAddr s rA imm) with
    | .error e => raise s e
    | .ok pa =>
      if s.resv = some pa then finish { (storeDatum s pa 4 (s.reg rB).toNat).setF true with resv := none }
      else finish { s.setF false with resv := none }

end Sys2Proof.Machine
end

