-- ==== Sys2Proof/Machine/Mac.lean ====
section
/-! DEFINITION. Multiply-accumulate and double-width multiply (R250 to R259). -/

namespace Sys2Proof.Machine

/-- The end of a signed accumulate: the accumulator and OV, CY unchanged (R251). -/
def macSigned (s : State) (r : BitVec 64 × Bool) : Outcome :=
  whenPresent s.cfg.hasMac s (arithEvent ((s.setAcc r.1).setOV r.2) (eventIf r.2 evOVMACADDE))

/-- The end of an unsigned accumulate: the accumulator and CY, OV unchanged (R251). -/
def macUnsigned (s : State) (r : BitVec 64 × Bool) : Outcome :=
  whenPresent s.cfg.hasMac s (arithEvent ((s.setAcc r.1).setCY r.2) (eventIf r.2 evCYMACADDE))

/-- `l.mac` (R252). -/
def execLMac (rA rB : RegNum) (s : State) : Outcome :=
  macSigned s (accAddSigned s.acc ((s.reg rA).toInt * (s.reg rB).toInt))

/-- `l.maci` (R253). -/
def execLMaci (rA : RegNum) (imm : BitVec 16) (s : State) : Outcome :=
  macSigned s (accAddSigned s.acc ((s.reg rA).toInt * (immSigned s imm).toInt))

/-- `l.macrc` (R254). -/
def execLMacrc (rD : RegNum) (s : State) : Outcome :=
  whenPresent s.cfg.hasMac s <|
    finish ((s.setReg rD (s.acc.setWidth s.width)).setAcc 0#64)

/-- `l.macu` (R255). -/
def execLMacu (rA rB : RegNum) (s : State) : Outcome :=
  macUnsigned s (accAddUnsigned s.acc ((s.reg rA).toNat * (s.reg rB).toNat))

/-- `l.msb` (R256). -/
def execLMsb (rA rB : RegNum) (s : State) : Outcome :=
  macSigned s (accSubSigned s.acc ((s.reg rA).toInt * (s.reg rB).toInt))

/-- `l.msbu` (R257). -/
def execLMsbu (rA rB : RegNum) (s : State) : Outcome :=
  macUnsigned s (accSubUnsigned s.acc ((s.reg rA).toNat * (s.reg rB).toNat))

/-- `l.muld` (R258). At `XLEN = 32` no flag is written (C3). -/
def execLMuld (rA rB : RegNum) (s : State) : Outcome :=
  whenPresent s.cfg.hasMac s <|
    let p := (s.reg rA).toInt * (s.reg rB).toInt
    let t := s.setAcc (BitVec.ofInt 64 p)
    match s.cfg.xlen with
    | .x32 => finish t
    | .x64 => arithEvent (t.setOV (signedOverflow 64 p)) (eventIf (signedOverflow 64 p) evOVMULE)

/-- `l.muldu` (R259). At `XLEN = 32` no flag is written (C3). -/
def execLMuldu (rA rB : RegNum) (s : State) : Outcome :=
  whenPresent s.cfg.hasMac s <|
    let p := (s.reg rA).toNat * (s.reg rB).toNat
    let t := s.setAcc (BitVec.ofNat 64 p)
    match s.cfg.xlen with
    | .x32 => finish t
    | .x64 => arithEvent (t.setCY (2 ^ 64 ≤ p)) (eventIf (2 ^ 64 ≤ p) evCYMULE)

end Sys2Proof.Machine
end

