-- ==== Sys2Proof/Machine/Lanes.lean ====
section
/-! DEFINITION. Lanes of a 64-bit register and the helper functions of the `lv.` family (R351, R352,
R353). -/

namespace Sys2Proof.Machine

/-- Lane `i` of `w` bits; lane 0 is the least significant (R351). -/
def lane (w i : Nat) (v : BitVec 64) : BitVec w := v.extractLsb' (w * i) w

/-- The register whose lanes 0 to `n - 1`, each of `w` bits, are given (R351). -/
def packLanes (w n : Nat) (f : Nat → BitVec w) : BitVec 64 :=
  match n with
  | 0 => 0#64
  | k + 1 => packLanes w k f ||| ((f k).setWidth 64 <<< (w * k))

/-- How many lanes of `w` bits a register has. -/
def laneCount (w : Nat) : Nat := 64 / w

/-- A function of two lanes applied lane by lane (R351). -/
def mapLanes2 (w : Nat) (f : BitVec w → BitVec w → BitVec w) (a b : BitVec 64) : BitVec 64 :=
  packLanes w (laneCount w) fun i => f (lane w i a) (lane w i b)

/-- `satNs` (R352). -/
def satSigned (w : Nat) (e : Int) : BitVec w := BitVec.ofInt w (min (2 ^ (w - 1) - 1) (max (-(2 ^ (w - 1))) e))

/-- `satNu` (R352). -/
def satUnsigned (w : Nat) (e : Int) : BitVec w := BitVec.ofInt w (min (2 ^ w - 1) (max 0 e))

/-- `repl` (R352). -/
def repl (w : Nat) (c : Bool) : BitVec w := if c then BitVec.allOnes w else 0#w

/-- The element comparisons (R353). -/
inductive Rel where
  | eq
  | ne
  | gt
  | ge
  | lt
  | le
  deriving DecidableEq, Repr

/-- A relation between two integers. -/
def Rel.holds (r : Rel) (a b : Int) : Bool :=
  match r with
  | .eq => a == b
  | .ne => a != b
  | .gt => b < a
  | .ge => b ≤ a
  | .lt => a < b
  | .le => a ≤ b

/-- An element as the integer it is compared as: signed under `LV_CMP_SIGNED` (R353). -/
def elemInt {w : Nat} (signed : Bool) (x : BitVec w) : Int := if signed then x.toInt else x.toNat

/-- One comparison of two elements (R353). -/
def elemRel {w : Nat} (signed : Bool) (r : Rel) (x y : BitVec w) : Bool := r.holds (elemInt signed x) (elemInt signed y)

/-- `lv.all_*`: whether every pair of lanes is in the relation. -/
def allLanes (w : Nat) (signed : Bool) (r : Rel) (a b : BitVec 64) : Bool :=
  (List.range (laneCount w)).all fun i => elemRel signed r (lane w i a) (lane w i b)

/-- `lv.any_*`: whether some pair of lanes is in the relation. -/
def anyLanes (w : Nat) (signed : Bool) (r : Rel) (a b : BitVec 64) : Bool :=
  (List.range (laneCount w)).any fun i => elemRel signed r (lane w i a) (lane w i b)

/-- The larger element; the second where they are equal (R431). -/
def elemMax {w : Nat} (signed : Bool) (x y : BitVec w) : BitVec w := if elemRel signed .gt x y then x else y

/-- The smaller element; the second where they are equal (R435). -/
def elemMin {w : Nat} (signed : Bool) (x y : BitVec w) : BitVec w := if elemRel signed .lt x y then x else y

/-- The average of two elements (R388, `LV_AVG`). -/
def elemAvg {w : Nat} (k : AvgKind) (x y : BitVec w) : BitVec w :=
  match k with
  | .exact => BitVec.ofNat w ((x.toNat + y.toNat) / 2)
  | .wrap => BitVec.ofNat w ((x.toNat + y.toNat) % 2 ^ w / 2)
  | .signed => BitVec.ofInt w ((x.toInt + y.toInt) / 2)

/-- `lv.merge.*` (R433, `LV_MERGE`): the line takes lane `i` from `rB` when `i` is even and from `rA`
when it is odd; the other reading interleaves the lower halves. -/
def mergeLanes (w : Nat) (k : MergeKind) (a b : BitVec 64) : BitVec 64 :=
  packLanes w (laneCount w) fun i =>
    match k with
    | .line => if i % 2 = 0 then lane w i b else lane w i a
    | .interleave => if i % 2 = 0 then lane w (i / 2) b else lane w (i / 2) a

/-- The packing instructions: each `2 h`-bit element of `rB`, then of `rA`, narrowed to `h` bits (R442
to R447). -/
def packNarrow (h : Nat) (f : BitVec (2 * h) → BitVec h) (a b : BitVec 64) : BitVec 64 :=
  packLanes h (laneCount h) fun i =>
    if i < laneCount (2 * h) then f (lane (2 * h) i b) else f (lane (2 * h) (i - laneCount (2 * h)) a)

/-- The unpacking instructions: the low `h`-bit elements of `rA` widened with their sign (R467, R468). -/
def unpackWiden (h : Nat) (a : BitVec 64) : BitVec 64 :=
  packLanes (2 * h) (laneCount (2 * h)) fun i => (lane h i a).signExtend (2 * h)

/-- `lv.perm.n`: nibble `i` is the nibble of `rA` that nibble `i` of `rB` names (R448). -/
def permNibbles (a b : BitVec 64) : BitVec 64 := packLanes 4 16 fun i => lane 4 (lane 4 i b).toNat a

/-- The amount of a lane shift: the low 3 or 4 bits of the lane of `rB` (R449 to R458). -/
def laneAmount {w : Nat} (y : BitVec w) : Nat := y.toNat % w

end Sys2Proof.Machine
end

