-- ==== Sys2Proof/Machine/Vector.lean ====
section
/-! DEFINITION. The packed instructions on 64-bit registers (R350 to R405, R430 to R469). -/

namespace Sys2Proof.Machine

/-- Whether the family exists (R350). -/
def hasVector (c : Config) : Bool := c.hasVdx64 && c.xlen == .x64

/-- A register as 64 bits. -/
def State.reg64 (s : State) (r : RegNum) : BitVec 64 := (s.reg r).setWidth 64

/-- A packed instruction: `x[rD]` is written with all 64 bits, and nothing else changes (R350, R351). -/
def vecResult (s : State) (rD : RegNum) (v : BitVec 64) : Outcome :=
  whenPresent (hasVector s.cfg) s (finish (s.setReg rD v))

/-- A packed instruction that works on pairs of lanes (R351). -/
def vecLanes (w : Nat) (f : BitVec w → BitVec w → BitVec w) (s : State) (rD rA rB : RegNum) : Outcome :=
  vecResult s rD (mapLanes2 w f (s.reg64 rA) (s.reg64 rB))

/-- `lv.all_*` and `lv.any_*`: the flag replicated into `rD`; `SR[F]` only under `LV_SETS_F` (R354). -/
def vecFlag (s : State) (rD : RegNum) (flag : Bool) : Outcome :=
  whenPresent (hasVector s.cfg) s <|
    let t := s.setReg rD (repl 64 flag)
    finish (if s.cfg.lvSetsF then t.setF flag else t)

/-- `lv.sll` and `lv.srl` (R451, R456, `LV_WHOLE_SHIFT`). -/
def vecWholeShift (s : State) (rD : RegNum) (v : BitVec 64) : Outcome :=
  whenPresent (hasVector s.cfg) s <|
    match s.cfg.lvWholeShift with
    | .line => finish (s.setReg rD v)
    | .refuse => .refused .wholeShiftUndefined
    | .illegal => raise s .illegalInstruction

/-- `lv.madds.h` and `lv.msubs.h` (R430, R437): refused, illegal, or, under `free`, `rD`, VMACHI and
VMACLO become free values. -/
def vecMacOp (s : State) (rD : RegNum) : Outcome :=
  whenPresent (hasVector s.cfg) s <|
    match s.cfg.lvVmac with
    | .refuse => .refused .vmacUndefined
    | .illegal => raise s .illegalInstruction
    | .free =>
      let t := (s.setReg rD s.free).spend
      let u := { t with vmachi := t.free }.spend
      finish { u with vmaclo := u.free }.spend

/-- `lv.add.b` (R355). -/
def execLvAddB (rD rA rB : RegNum) (s : State) : Outcome :=
  vecLanes 8 (fun x y => BitVec.ofNat 8 (x.toNat + y.toNat)) s rD rA rB

/-- `lv.add.h` (R356). -/
def execLvAddH (rD rA rB : RegNum) (s : State) : Outcome :=
  vecLanes 16 (fun x y => BitVec.ofNat 16 (x.toNat + y.toNat)) s rD rA rB

/-- `lv.adds.b` (R357). -/
def execLvAddsB (rD rA rB : RegNum) (s : State) : Outcome :=
  vecLanes 8 (fun x y => satSigned 8 (x.toInt + y.toInt)) s rD rA rB

/-- `lv.adds.h` (R358). -/
def execLvAddsH (rD rA rB : RegNum) (s : State) : Outcome :=
  vecLanes 16 (fun x y => satSigned 16 (x.toInt + y.toInt)) s rD rA rB

/-- `lv.addu.b` (R359). -/
def execLvAdduB (rD rA rB : RegNum) (s : State) : Outcome :=
  vecLanes 8 (fun x y => BitVec.ofNat 8 (x.toNat + y.toNat)) s rD rA rB

/-- `lv.addu.h` (R360). -/
def execLvAdduH (rD rA rB : RegNum) (s : State) : Outcome :=
  vecLanes 16 (fun x y => BitVec.ofNat 16 (x.toNat + y.toNat)) s rD rA rB

/-- `lv.addus.b` (R361). -/
def execLvAddusB (rD rA rB : RegNum) (s : State) : Outcome :=
  vecLanes 8 (fun x y => satUnsigned 8 ((x.toNat : Int) + y.toNat)) s rD rA rB

/-- `lv.addus.h` (R362). Unsigned saturation (C9). -/
def execLvAddusH (rD rA rB : RegNum) (s : State) : Outcome :=
  vecLanes 16 (fun x y => satUnsigned 16 ((x.toNat : Int) + y.toNat)) s rD rA rB

/-- `lv.all_eq.b` (R363). -/
def execLvAllEqB (rD rA rB : RegNum) (s : State) : Outcome :=
  vecFlag s rD (allLanes 8 s.cfg.lvCmpSigned .eq (s.reg64 rA) (s.reg64 rB))

/-- `lv.all_eq.h` (R364). -/
def execLvAllEqH (rD rA rB : RegNum) (s : State) : Outcome :=
  vecFlag s rD (allLanes 16 s.cfg.lvCmpSigned .eq (s.reg64 rA) (s.reg64 rB))

/-- `lv.all_ge.b` (R365). -/
def execLvAllGeB (rD rA rB : RegNum) (s : State) : Outcome :=
  vecFlag s rD (allLanes 8 s.cfg.lvCmpSigned .ge (s.reg64 rA) (s.reg64 rB))

/-- `lv.all_ge.h` (R366). -/
def execLvAllGeH (rD rA rB : RegNum) (s : State) : Outcome :=
  vecFlag s rD (allLanes 16 s.cfg.lvCmpSigned .ge (s.reg64 rA) (s.reg64 rB))

/-- `lv.all_gt.b` (R367). -/
def execLvAllGtB (rD rA rB : RegNum) (s : State) : Outcome :=
  vecFlag s rD (allLanes 8 s.cfg.lvCmpSigned .gt (s.reg64 rA) (s.reg64 rB))

/-- `lv.all_gt.h` (R368). -/
def execLvAllGtH (rD rA rB : RegNum) (s : State) : Outcome :=
  vecFlag s rD (allLanes 16 s.cfg.lvCmpSigned .gt (s.reg64 rA) (s.reg64 rB))

/-- `lv.all_le.b` (R369). -/
def execLvAllLeB (rD rA rB : RegNum) (s : State) : Outcome :=
  vecFlag s rD (allLanes 8 s.cfg.lvCmpSigned .le (s.reg64 rA) (s.reg64 rB))

/-- `lv.all_le.h` (R370). -/
def execLvAllLeH (rD rA rB : RegNum) (s : State) : Outcome :=
  vecFlag s rD (allLanes 16 s.cfg.lvCmpSigned .le (s.reg64 rA) (s.reg64 rB))

/-- `lv.all_lt.b` (R371). -/
def execLvAllLtB (rD rA rB : RegNum) (s : State) : Outcome :=
  vecFlag s rD (allLanes 8 s.cfg.lvCmpSigned .lt (s.reg64 rA) (s.reg64 rB))

/-- `lv.all_lt.h` (R372). -/
def execLvAllLtH (rD rA rB : RegNum) (s : State) : Outcome :=
  vecFlag s rD (allLanes 16 s.cfg.lvCmpSigned .lt (s.reg64 rA) (s.reg64 rB))

/-- `lv.all_ne.b` (R373). -/
def execLvAllNeB (rD rA rB : RegNum) (s : State) : Outcome :=
  vecFlag s rD (allLanes 8 s.cfg.lvCmpSigned .ne (s.reg64 rA) (s.reg64 rB))

/-- `lv.all_ne.h` (R374). -/
def execLvAllNeH (rD rA rB : RegNum) (s : State) : Outcome :=
  vecFlag s rD (allLanes 16 s.cfg.lvCmpSigned .ne (s.reg64 rA) (s.reg64 rB))

/-- `lv.and` (R375). -/
def execLvAnd (rD rA rB : RegNum) (s : State) : Outcome := vecResult s rD (s.reg64 rA &&& s.reg64 rB)

/-- `lv.any_eq.b` (R376). -/
def execLvAnyEqB (rD rA rB : RegNum) (s : State) : Outcome :=
  vecFlag s rD (anyLanes 8 s.cfg.lvCmpSigned .eq (s.reg64 rA) (s.reg64 rB))

/-- `lv.any_eq.h` (R377). -/
def execLvAnyEqH (rD rA rB : RegNum) (s : State) : Outcome :=
  vecFlag s rD (anyLanes 16 s.cfg.lvCmpSigned .eq (s.reg64 rA) (s.reg64 rB))

/-- `lv.any_ge.b` (R378). -/
def execLvAnyGeB (rD rA rB : RegNum) (s : State) : Outcome :=
  vecFlag s rD (anyLanes 8 s.cfg.lvCmpSigned .ge (s.reg64 rA) (s.reg64 rB))

/-- `lv.any_ge.h` (R379). -/
def execLvAnyGeH (rD rA rB : RegNum) (s : State) : Outcome :=
  vecFlag s rD (anyLanes 16 s.cfg.lvCmpSigned .ge (s.reg64 rA) (s.reg64 rB))

/-- `lv.any_gt.b` (R380). -/
def execLvAnyGtB (rD rA rB : RegNum) (s : State) : Outcome :=
  vecFlag s rD (anyLanes 8 s.cfg.lvCmpSigned .gt (s.reg64 rA) (s.reg64 rB))

/-- `lv.any_gt.h` (R381). -/
def execLvAnyGtH (rD rA rB : RegNum) (s : State) : Outcome :=
  vecFlag s rD (anyLanes 16 s.cfg.lvCmpSigned .gt (s.reg64 rA) (s.reg64 rB))

/-- `lv.any_le.b` (R382). -/
def execLvAnyLeB (rD rA rB : RegNum) (s : State) : Outcome :=
  vecFlag s rD (anyLanes 8 s.cfg.lvCmpSigned .le (s.reg64 rA) (s.reg64 rB))

/-- `lv.any_le.h` (R383). -/
def execLvAnyLeH (rD rA rB : RegNum) (s : State) : Outcome :=
  vecFlag s rD (anyLanes 16 s.cfg.lvCmpSigned .le (s.reg64 rA) (s.reg64 rB))

/-- `lv.any_lt.b` (R384). -/
def execLvAnyLtB (rD rA rB : RegNum) (s : State) : Outcome :=
  vecFlag s rD (anyLanes 8 s.cfg.lvCmpSigned .lt (s.reg64 rA) (s.reg64 rB))

/-- `lv.any_lt.h` (R385). -/
def execLvAnyLtH (rD rA rB : RegNum) (s : State) : Outcome :=
  vecFlag s rD (anyLanes 16 s.cfg.lvCmpSigned .lt (s.reg64 rA) (s.reg64 rB))

/-- `lv.any_ne.b` (R386). -/
def execLvAnyNeB (rD rA rB : RegNum) (s : State) : Outcome :=
  vecFlag s rD (anyLanes 8 s.cfg.lvCmpSigned .ne (s.reg64 rA) (s.reg64 rB))

/-- `lv.any_ne.h` (R387). -/
def execLvAnyNeH (rD rA rB : RegNum) (s : State) : Outcome :=
  vecFlag s rD (anyLanes 16 s.cfg.lvCmpSigned .ne (s.reg64 rA) (s.reg64 rB))

/-- `lv.avg.b` (R388). -/
def execLvAvgB (rD rA rB : RegNum) (s : State) : Outcome := vecLanes 8 (elemAvg s.cfg.lvAvg) s rD rA rB

/-- `lv.avg.h` (R389). -/
def execLvAvgH (rD rA rB : RegNum) (s : State) : Outcome := vecLanes 16 (elemAvg s.cfg.lvAvg) s rD rA rB

/-- `lv.cmp_eq.b` (R390). -/
def execLvCmpEqB (rD rA rB : RegNum) (s : State) : Outcome :=
  vecLanes 8 (fun x y => repl 8 (elemRel s.cfg.lvCmpSigned .eq x y)) s rD rA rB

/-- `lv.cmp_eq.h` (R391). -/
def execLvCmpEqH (rD rA rB : RegNum) (s : State) : Outcome :=
  vecLanes 16 (fun x y => repl 16 (elemRel s.cfg.lvCmpSigned .eq x y)) s rD rA rB

/-- `lv.cmp_ge.b` (R392). -/
def execLvCmpGeB (rD rA rB : RegNum) (s : State) : Outcome :=
  vecLanes 8 (fun x y => repl 8 (elemRel s.cfg.lvCmpSigned .ge x y)) s rD rA rB

/-- `lv.cmp_ge.h` (R393). -/
def execLvCmpGeH (rD rA rB : RegNum) (s : State) : Outcome :=
  vecLanes 16 (fun x y => repl 16 (elemRel s.cfg.lvCmpSigned .ge x y)) s rD rA rB

/-- `lv.cmp_gt.b` (R394). -/
def execLvCmpGtB (rD rA rB : RegNum) (s : State) : Outcome :=
  vecLanes 8 (fun x y => repl 8 (elemRel s.cfg.lvCmpSigned .gt x y)) s rD rA rB

/-- `lv.cmp_gt.h` (R395). -/
def execLvCmpGtH (rD rA rB : RegNum) (s : State) : Outcome :=
  vecLanes 16 (fun x y => repl 16 (elemRel s.cfg.lvCmpSigned .gt x y)) s rD rA rB

/-- `lv.cmp_le.b` (R396). -/
def execLvCmpLeB (rD rA rB : RegNum) (s : State) : Outcome :=
  vecLanes 8 (fun x y => repl 8 (elemRel s.cfg.lvCmpSigned .le x y)) s rD rA rB

/-- `lv.cmp_le.h` (R397). -/
def execLvCmpLeH (rD rA rB : RegNum) (s : State) : Outcome :=
  vecLanes 16 (fun x y => repl 16 (elemRel s.cfg.lvCmpSigned .le x y)) s rD rA rB

/-- `lv.cmp_lt.b` (R398). -/
def execLvCmpLtB (rD rA rB : RegNum) (s : State) : Outcome :=
  vecLanes 8 (fun x y => repl 8 (elemRel s.cfg.lvCmpSigned .lt x y)) s rD rA rB

/-- `lv.cmp_lt.h` (R399). -/
def execLvCmpLtH (rD rA rB : RegNum) (s : State) : Outcome :=
  vecLanes 16 (fun x y => repl 16 (elemRel s.cfg.lvCmpSigned .lt x y)) s rD rA rB

/-- `lv.cmp_ne.b` (R400). -/
def execLvCmpNeB (rD rA rB : RegNum) (s : State) : Outcome :=
  vecLanes 8 (fun x y => repl 8 (elemRel s.cfg.lvCmpSigned .ne x y)) s rD rA rB

/-- `lv.cmp_ne.h` (R401). -/
def execLvCmpNeH (rD rA rB : RegNum) (s : State) : Outcome :=
  vecLanes 16 (fun x y => repl 16 (elemRel s.cfg.lvCmpSigned .ne x y)) s rD rA rB

/-- `lv.cust1` (R402). -/
def execLvCust1 (hi : BitVec 18) (lo : BitVec 4) (s : State) : Outcome :=
  unitCustom "lv.cust1" s.cfg.vcustReserved (hasVector s.cfg) (encode (.lvCust1 hi lo)) s

/-- `lv.cust2` (R403). -/
def execLvCust2 (hi : BitVec 18) (lo : BitVec 4) (s : State) : Outcome :=
  unitCustom "lv.cust2" s.cfg.vcustReserved (hasVector s.cfg) (encode (.lvCust2 hi lo)) s

/-- `lv.cust3` (R404). -/
def execLvCust3 (hi : BitVec 18) (lo : BitVec 4) (s : State) : Outcome :=
  unitCustom "lv.cust3" s.cfg.vcustReserved (hasVector s.cfg) (encode (.lvCust3 hi lo)) s

/-- `lv.cust4` (R405). -/
def execLvCust4 (hi : BitVec 18) (lo : BitVec 4) (s : State) : Outcome :=
  unitCustom "lv.cust4" s.cfg.vcustReserved (hasVector s.cfg) (encode (.lvCust4 hi lo)) s

/-- `lv.madds.h` (R430). -/
def execLvMaddsH (rD _rA _rB : RegNum) (s : State) : Outcome := vecMacOp s rD

/-- `lv.max.b` (R431). -/
def execLvMaxB (rD rA rB : RegNum) (s : State) : Outcome := vecLanes 8 (elemMax s.cfg.lvCmpSigned) s rD rA rB

/-- `lv.max.h` (R432). -/
def execLvMaxH (rD rA rB : RegNum) (s : State) : Outcome := vecLanes 16 (elemMax s.cfg.lvCmpSigned) s rD rA rB

/-- `lv.merge.b` (R433). -/
def execLvMergeB (rD rA rB : RegNum) (s : State) : Outcome :=
  vecResult s rD (mergeLanes 8 s.cfg.lvMerge (s.reg64 rA) (s.reg64 rB))

/-- `lv.merge.h` (R434). -/
def execLvMergeH (rD rA rB : RegNum) (s : State) : Outcome :=
  vecResult s rD (mergeLanes 16 s.cfg.lvMerge (s.reg64 rA) (s.reg64 rB))

/-- `lv.min.b` (R435). -/
def execLvMinB (rD rA rB : RegNum) (s : State) : Outcome := vecLanes 8 (elemMin s.cfg.lvCmpSigned) s rD rA rB

/-- `lv.min.h` (R436). -/
def execLvMinH (rD rA rB : RegNum) (s : State) : Outcome := vecLanes 16 (elemMin s.cfg.lvCmpSigned) s rD rA rB

/-- `lv.msubs.h` (R437). -/
def execLvMsubsH (rD _rA _rB : RegNum) (s : State) : Outcome := vecMacOp s rD

/-- `lv.muls.h` (R438). -/
def execLvMulsH (rD rA rB : RegNum) (s : State) : Outcome :=
  vecLanes 16 (fun x y => satSigned 16 (x.toInt * y.toInt)) s rD rA rB

/-- `lv.nand` (R439). -/
def execLvNand (rD rA rB : RegNum) (s : State) : Outcome := vecResult s rD (~~~(s.reg64 rA &&& s.reg64 rB))

/-- `lv.nor` (R440). -/
def execLvNor (rD rA rB : RegNum) (s : State) : Outcome := vecResult s rD (~~~(s.reg64 rA ||| s.reg64 rB))

/-- `lv.or` (R441). -/
def execLvOr (rD rA rB : RegNum) (s : State) : Outcome := vecResult s rD (s.reg64 rA ||| s.reg64 rB)

/-- `lv.pack.b` (R442). -/
def execLvPackB (rD rA rB : RegNum) (s : State) : Outcome :=
  vecResult s rD (packNarrow 4 (fun x => x.setWidth 4) (s.reg64 rA) (s.reg64 rB))

/-- `lv.pack.h` (R443). -/
def execLvPackH (rD rA rB : RegNum) (s : State) : Outcome :=
  vecResult s rD (packNarrow 8 (fun x => x.setWidth 8) (s.reg64 rA) (s.reg64 rB))

/-- `lv.packs.b` (R444). -/
def execLvPacksB (rD rA rB : RegNum) (s : State) : Outcome :=
  vecResult s rD (packNarrow 4 (fun x => satSigned 4 x.toInt) (s.reg64 rA) (s.reg64 rB))

/-- `lv.packs.h` (R445). -/
def execLvPacksH (rD rA rB : RegNum) (s : State) : Outcome :=
  vecResult s rD (packNarrow 8 (fun x => satSigned 8 x.toInt) (s.reg64 rA) (s.reg64 rB))

/-- `lv.packus.b` (R446). -/
def execLvPackusB (rD rA rB : RegNum) (s : State) : Outcome :=
  vecResult s rD (packNarrow 4 (fun x => satUnsigned 4 x.toNat) (s.reg64 rA) (s.reg64 rB))

/-- `lv.packus.h` (R447). -/
def execLvPackusH (rD rA rB : RegNum) (s : State) : Outcome :=
  vecResult s rD (packNarrow 8 (fun x => satUnsigned 8 x.toNat) (s.reg64 rA) (s.reg64 rB))

/-- `lv.perm.n` (R448). -/
def execLvPermN (rD rA rB : RegNum) (s : State) : Outcome :=
  vecResult s rD (permNibbles (s.reg64 rA) (s.reg64 rB))

/-- `lv.rl.b` (R449). -/
def execLvRlB (rD rA rB : RegNum) (s : State) : Outcome :=
  vecLanes 8 (fun x y => x.rotateLeft (laneAmount y)) s rD rA rB

/-- `lv.rl.h` (R450). -/
def execLvRlH (rD rA rB : RegNum) (s : State) : Outcome :=
  vecLanes 16 (fun x y => x.rotateLeft (laneAmount y)) s rD rA rB

/-- `lv.sll` (R451). -/
def execLvSll (rD rA rB : RegNum) (s : State) : Outcome :=
  vecWholeShift s rD (s.reg64 rA <<< ((s.reg64 rB).toNat % 8))

/-- `lv.sll.b` (R452). -/
def execLvSllB (rD rA rB : RegNum) (s : State) : Outcome :=
  vecLanes 8 (fun x y => x <<< laneAmount y) s rD rA rB

/-- `lv.sll.h` (R453). -/
def execLvSllH (rD rA rB : RegNum) (s : State) : Outcome :=
  vecLanes 16 (fun x y => x <<< laneAmount y) s rD rA rB

/-- `lv.sra.b` (R454). -/
def execLvSraB (rD rA rB : RegNum) (s : State) : Outcome :=
  vecLanes 8 (fun x y => x.sshiftRight (laneAmount y)) s rD rA rB

/-- `lv.sra.h` (R455). -/
def execLvSraH (rD rA rB : RegNum) (s : State) : Outcome :=
  vecLanes 16 (fun x y => x.sshiftRight (laneAmount y)) s rD rA rB

/-- `lv.srl` (R456). -/
def execLvSrl (rD rA rB : RegNum) (s : State) : Outcome :=
  vecWholeShift s rD (s.reg64 rA >>> ((s.reg64 rB).toNat % 8))

/-- `lv.srl.b` (R457). -/
def execLvSrlB (rD rA rB : RegNum) (s : State) : Outcome :=
  vecLanes 8 (fun x y => x >>> laneAmount y) s rD rA rB

/-- `lv.srl.h` (R458). -/
def execLvSrlH (rD rA rB : RegNum) (s : State) : Outcome :=
  vecLanes 16 (fun x y => x >>> laneAmount y) s rD rA rB

/-- `lv.sub.b` (R459). -/
def execLvSubB (rD rA rB : RegNum) (s : State) : Outcome :=
  vecLanes 8 (fun x y => BitVec.ofInt 8 ((x.toNat : Int) - y.toNat)) s rD rA rB

/-- `lv.sub.h` (R460). -/
def execLvSubH (rD rA rB : RegNum) (s : State) : Outcome :=
  vecLanes 16 (fun x y => BitVec.ofInt 16 ((x.toNat : Int) - y.toNat)) s rD rA rB

/-- `lv.subs.b` (R461). -/
def execLvSubsB (rD rA rB : RegNum) (s : State) : Outcome :=
  vecLanes 8 (fun x y => satSigned 8 (x.toInt - y.toInt)) s rD rA rB

/-- `lv.subs.h` (R462). -/
def execLvSubsH (rD rA rB : RegNum) (s : State) : Outcome :=
  vecLanes 16 (fun x y => satSigned 16 (x.toInt - y.toInt)) s rD rA rB

/-- `lv.subu.b` (R463). -/
def execLvSubuB (rD rA rB : RegNum) (s : State) : Outcome :=
  vecLanes 8 (fun x y => BitVec.ofInt 8 ((x.toNat : Int) - y.toNat)) s rD rA rB

/-- `lv.subu.h` (R464). -/
def execLvSubuH (rD rA rB : RegNum) (s : State) : Outcome :=
  vecLanes 16 (fun x y => BitVec.ofInt 16 ((x.toNat : Int) - y.toNat)) s rD rA rB

/-- `lv.subus.b` (R465). -/
def execLvSubusB (rD rA rB : RegNum) (s : State) : Outcome :=
  vecLanes 8 (fun x y => satUnsigned 8 ((x.toNat : Int) - y.toNat)) s rD rA rB

/-- `lv.subus.h` (R466). -/
def execLvSubusH (rD rA rB : RegNum) (s : State) : Outcome :=
  vecLanes 16 (fun x y => satUnsigned 16 ((x.toNat : Int) - y.toNat)) s rD rA rB

/-- `lv.unpack.b` (R467). `rB` is ignored (C18). -/
def execLvUnpackB (rD rA _rB : RegNum) (s : State) : Outcome := vecResult s rD (unpackWiden 4 (s.reg64 rA))

/-- `lv.unpack.h` (R468). `rB` is ignored (C18). -/
def execLvUnpackH (rD rA _rB : RegNum) (s : State) : Outcome := vecResult s rD (unpackWiden 8 (s.reg64 rA))

/-- `lv.xor` (R469). -/
def execLvXor (rD rA rB : RegNum) (s : State) : Outcome := vecResult s rD (s.reg64 rA ^^^ s.reg64 rB)

end Sys2Proof.Machine
end

