-- ==== Sys2Proof/Machine/Dispatch.lean ====
section
/-! DEFINITION. The meaning of every instruction: one arm for each constructor. -/

namespace Sys2Proof.Machine

-- The meaning of an instruction, its own effect on the pc included (R27).
def exec (i : Instr) (s : State) : Host.Outcome State Fault Refusal :=
  match i with
  | .lAdd rD rA rB => Sys2Proof.Machine.execLAdd rD rA rB s
  | .lAddc rD rA rB => Sys2Proof.Machine.execLAddc rD rA rB s
  | .lAddi rD rA imm => Sys2Proof.Machine.execLAddi rD rA imm s
  | .lAddic rD rA imm => Sys2Proof.Machine.execLAddic rD rA imm s
  | .lAnd rD rA rB => Sys2Proof.Machine.execLAnd rD rA rB s
  | .lAndi rD rA imm => Sys2Proof.Machine.execLAndi rD rA imm s
  | .lBf n => Sys2Proof.Machine.execLBf n s
  | .lBnf n => Sys2Proof.Machine.execLBnf n s
  | .lCmov rD rA rB => Sys2Proof.Machine.execLCmov rD rA rB s
  | .lCsync => Sys2Proof.Machine.execLCsync s
  | .lCust1 custom => Sys2Proof.Machine.execLCust1 custom s
  | .lCust2 custom => Sys2Proof.Machine.execLCust2 custom s
  | .lCust3 custom => Sys2Proof.Machine.execLCust3 custom s
  | .lCust4 custom => Sys2Proof.Machine.execLCust4 custom s
  | .lCust5 rD rA rB l k => Sys2Proof.Machine.execLCust5 rD rA rB l k s
  | .lCust6 custom => Sys2Proof.Machine.execLCust6 custom s
  | .lCust7 custom => Sys2Proof.Machine.execLCust7 custom s
  | .lCust8 custom => Sys2Proof.Machine.execLCust8 custom s
  | .lDiv rD rA rB => Sys2Proof.Machine.execLDiv rD rA rB s
  | .lDivu rD rA rB => Sys2Proof.Machine.execLDivu rD rA rB s
  | .lExtbs rD rA => Sys2Proof.Machine.execLExtbs rD rA s
  | .lExtbz rD rA => Sys2Proof.Machine.execLExtbz rD rA s
  | .lExths rD rA => Sys2Proof.Machine.execLExths rD rA s
  | .lExthz rD rA => Sys2Proof.Machine.execLExthz rD rA s
  | .lExtws rD rA => Sys2Proof.Machine.execLExtws rD rA s
  | .lExtwz rD rA => Sys2Proof.Machine.execLExtwz rD rA s
  | .lFf1 rD rA rB => Sys2Proof.Machine.execLFf1 rD rA rB s
  | .lFl1 rD rA rB => Sys2Proof.Machine.execLFl1 rD rA rB s
  | .lJ n => Sys2Proof.Machine.execLJ n s
  | .lJal n => Sys2Proof.Machine.execLJal n s
  | .lJalr rB => Sys2Proof.Machine.execLJalr rB s
  | .lJr rB => Sys2Proof.Machine.execLJr rB s
  | .lLbs rD rA imm => Sys2Proof.Machine.execLLbs rD rA imm s
  | .lLbz rD rA imm => Sys2Proof.Machine.execLLbz rD rA imm s
  | .lLd rD rA imm => Sys2Proof.Machine.execLLd rD rA imm s
  | .lLhs rD rA imm => Sys2Proof.Machine.execLLhs rD rA imm s
  | .lLhz rD rA imm => Sys2Proof.Machine.execLLhz rD rA imm s
  | .lLwa rD rA imm => Sys2Proof.Machine.execLLwa rD rA imm s
  | .lLws rD rA imm => Sys2Proof.Machine.execLLws rD rA imm s
  | .lLwz rD rA imm => Sys2Proof.Machine.execLLwz rD rA imm s
  | .lMac rA rB => Sys2Proof.Machine.execLMac rA rB s
  | .lMaci rA imm => Sys2Proof.Machine.execLMaci rA imm s
  | .lMacrc rD => Sys2Proof.Machine.execLMacrc rD s
  | .lMacu rA rB => Sys2Proof.Machine.execLMacu rA rB s
  | .lMfspr rD rA imm => Sys2Proof.Machine.execLMfspr rD rA imm s
  | .lMovhi rD imm => Sys2Proof.Machine.execLMovhi rD imm s
  | .lMsb rA rB => Sys2Proof.Machine.execLMsb rA rB s
  | .lMsbu rA rB => Sys2Proof.Machine.execLMsbu rA rB s
  | .lMsync => Sys2Proof.Machine.execLMsync s
  | .lMtspr rA rB imm => Sys2Proof.Machine.execLMtspr rA rB imm s
  | .lMul rD rA rB => Sys2Proof.Machine.execLMul rD rA rB s
  | .lMuld rA rB => Sys2Proof.Machine.execLMuld rA rB s
  | .lMuldu rA rB => Sys2Proof.Machine.execLMuldu rA rB s
  | .lMuli rD rA imm => Sys2Proof.Machine.execLMuli rD rA imm s
  | .lMulu rD rA rB => Sys2Proof.Machine.execLMulu rD rA rB s
  | .lNop imm => Sys2Proof.Machine.execLNop imm s
  | .lOr rD rA rB => Sys2Proof.Machine.execLOr rD rA rB s
  | .lOri rD rA imm => Sys2Proof.Machine.execLOri rD rA imm s
  | .lPsync => Sys2Proof.Machine.execLPsync s
  | .lRfe => Sys2Proof.Machine.execLRfe s
  | .lRor rD rA rB => Sys2Proof.Machine.execLRor rD rA rB s
  | .lRori rD rA l => Sys2Proof.Machine.execLRori rD rA l s
  | .lSb rA rB imm => Sys2Proof.Machine.execLSb rA rB imm s
  | .lSd rA rB imm => Sys2Proof.Machine.execLSd rA rB imm s
  | .lSfeq rA rB => Sys2Proof.Machine.execLSfeq rA rB s
  | .lSfeqi rA imm => Sys2Proof.Machine.execLSfeqi rA imm s
  | .lSfges rA rB => Sys2Proof.Machine.execLSfges rA rB s
  | .lSfgesi rA imm => Sys2Proof.Machine.execLSfgesi rA imm s
  | .lSfgeu rA rB => Sys2Proof.Machine.execLSfgeu rA rB s
  | .lSfgeui rA imm => Sys2Proof.Machine.execLSfgeui rA imm s
  | .lSfgts rA rB => Sys2Proof.Machine.execLSfgts rA rB s
  | .lSfgtsi rA imm => Sys2Proof.Machine.execLSfgtsi rA imm s
  | .lSfgtu rA rB => Sys2Proof.Machine.execLSfgtu rA rB s
  | .lSfgtui rA imm => Sys2Proof.Machine.execLSfgtui rA imm s
  | .lSfles rA rB => Sys2Proof.Machine.execLSfles rA rB s
  | .lSflesi rA imm => Sys2Proof.Machine.execLSflesi rA imm s
  | .lSfleu rA rB => Sys2Proof.Machine.execLSfleu rA rB s
  | .lSfleui rA imm => Sys2Proof.Machine.execLSfleui rA imm s
  | .lSflts rA rB => Sys2Proof.Machine.execLSflts rA rB s
  | .lSfltsi rA imm => Sys2Proof.Machine.execLSfltsi rA imm s
  | .lSfltu rA rB => Sys2Proof.Machine.execLSfltu rA rB s
  | .lSfltui rA imm => Sys2Proof.Machine.execLSfltui rA imm s
  | .lSfne rA rB => Sys2Proof.Machine.execLSfne rA rB s
  | .lSfnei rA imm => Sys2Proof.Machine.execLSfnei rA imm s
  | .lSh rA rB imm => Sys2Proof.Machine.execLSh rA rB imm s
  | .lSll rD rA rB => Sys2Proof.Machine.execLSll rD rA rB s
  | .lSlli rD rA l => Sys2Proof.Machine.execLSlli rD rA l s
  | .lSra rD rA rB => Sys2Proof.Machine.execLSra rD rA rB s
  | .lSrai rD rA l => Sys2Proof.Machine.execLSrai rD rA l s
  | .lSrl rD rA rB => Sys2Proof.Machine.execLSrl rD rA rB s
  | .lSrli rD rA l => Sys2Proof.Machine.execLSrli rD rA l s
  | .lSub rD rA rB => Sys2Proof.Machine.execLSub rD rA rB s
  | .lSw rA rB imm => Sys2Proof.Machine.execLSw rA rB imm s
  | .lSwa rA rB imm => Sys2Proof.Machine.execLSwa rA rB imm s
  | .lSys imm => Sys2Proof.Machine.execLSys imm s
  | .lTrap imm => Sys2Proof.Machine.execLTrap imm s
  | .lXor rD rA rB => Sys2Proof.Machine.execLXor rD rA rB s
  | .lXori rD rA imm => Sys2Proof.Machine.execLXori rD rA imm s
  | .lfAddD rD rA rB => Sys2Proof.Machine.execLfAddD rD rA rB s
  | .lfAddS rD rA rB => Sys2Proof.Machine.execLfAddS rD rA rB s
  | .lfCust1D rA rB custom => Sys2Proof.Machine.execLfCust1D rA rB custom s
  | .lfCust1S rA rB custom => Sys2Proof.Machine.execLfCust1S rA rB custom s
  | .lfDivD rD rA rB => Sys2Proof.Machine.execLfDivD rD rA rB s
  | .lfDivS rD rA rB => Sys2Proof.Machine.execLfDivS rD rA rB s
  | .lfFtoiD rD rA => Sys2Proof.Machine.execLfFtoiD rD rA s
  | .lfFtoiS rD rA => Sys2Proof.Machine.execLfFtoiS rD rA s
  | .lfItofD rD rA => Sys2Proof.Machine.execLfItofD rD rA s
  | .lfItofS rD rA => Sys2Proof.Machine.execLfItofS rD rA s
  | .lfMaddD rD rA rB => Sys2Proof.Machine.execLfMaddD rD rA rB s
  | .lfMaddS rD rA rB => Sys2Proof.Machine.execLfMaddS rD rA rB s
  | .lfMulD rD rA rB => Sys2Proof.Machine.execLfMulD rD rA rB s
  | .lfMulS rD rA rB => Sys2Proof.Machine.execLfMulS rD rA rB s
  | .lfRemD rD rA rB => Sys2Proof.Machine.execLfRemD rD rA rB s
  | .lfRemS rD rA rB => Sys2Proof.Machine.execLfRemS rD rA rB s
  | .lfSfeqD rA rB => Sys2Proof.Machine.execLfSfeqD rA rB s
  | .lfSfeqS rA rB => Sys2Proof.Machine.execLfSfeqS rA rB s
  | .lfSfgeD rA rB => Sys2Proof.Machine.execLfSfgeD rA rB s
  | .lfSfgeS rA rB => Sys2Proof.Machine.execLfSfgeS rA rB s
  | .lfSfgtD rA rB => Sys2Proof.Machine.execLfSfgtD rA rB s
  | .lfSfgtS rA rB => Sys2Proof.Machine.execLfSfgtS rA rB s
  | .lfSfleD rA rB => Sys2Proof.Machine.execLfSfleD rA rB s
  | .lfSfleS rA rB => Sys2Proof.Machine.execLfSfleS rA rB s
  | .lfSfltD rA rB => Sys2Proof.Machine.execLfSfltD rA rB s
  | .lfSfltS rA rB => Sys2Proof.Machine.execLfSfltS rA rB s
  | .lfSfneD rA rB => Sys2Proof.Machine.execLfSfneD rA rB s
  | .lfSfneS rA rB => Sys2Proof.Machine.execLfSfneS rA rB s
  | .lfSubD rD rA rB => Sys2Proof.Machine.execLfSubD rD rA rB s
  | .lfSubS rD rA rB => Sys2Proof.Machine.execLfSubS rD rA rB s
  | .lvAddB rD rA rB => Sys2Proof.Machine.execLvAddB rD rA rB s
  | .lvAddH rD rA rB => Sys2Proof.Machine.execLvAddH rD rA rB s
  | .lvAddsB rD rA rB => Sys2Proof.Machine.execLvAddsB rD rA rB s
  | .lvAddsH rD rA rB => Sys2Proof.Machine.execLvAddsH rD rA rB s
  | .lvAdduB rD rA rB => Sys2Proof.Machine.execLvAdduB rD rA rB s
  | .lvAdduH rD rA rB => Sys2Proof.Machine.execLvAdduH rD rA rB s
  | .lvAddusB rD rA rB => Sys2Proof.Machine.execLvAddusB rD rA rB s
  | .lvAddusH rD rA rB => Sys2Proof.Machine.execLvAddusH rD rA rB s
  | .lvAllEqB rD rA rB => Sys2Proof.Machine.execLvAllEqB rD rA rB s
  | .lvAllEqH rD rA rB => Sys2Proof.Machine.execLvAllEqH rD rA rB s
  | .lvAllGeB rD rA rB => Sys2Proof.Machine.execLvAllGeB rD rA rB s
  | .lvAllGeH rD rA rB => Sys2Proof.Machine.execLvAllGeH rD rA rB s
  | .lvAllGtB rD rA rB => Sys2Proof.Machine.execLvAllGtB rD rA rB s
  | .lvAllGtH rD rA rB => Sys2Proof.Machine.execLvAllGtH rD rA rB s
  | .lvAllLeB rD rA rB => Sys2Proof.Machine.execLvAllLeB rD rA rB s
  | .lvAllLeH rD rA rB => Sys2Proof.Machine.execLvAllLeH rD rA rB s
  | .lvAllLtB rD rA rB => Sys2Proof.Machine.execLvAllLtB rD rA rB s
  | .lvAllLtH rD rA rB => Sys2Proof.Machine.execLvAllLtH rD rA rB s
  | .lvAllNeB rD rA rB => Sys2Proof.Machine.execLvAllNeB rD rA rB s
  | .lvAllNeH rD rA rB => Sys2Proof.Machine.execLvAllNeH rD rA rB s
  | .lvAnd rD rA rB => Sys2Proof.Machine.execLvAnd rD rA rB s
  | .lvAnyEqB rD rA rB => Sys2Proof.Machine.execLvAnyEqB rD rA rB s
  | .lvAnyEqH rD rA rB => Sys2Proof.Machine.execLvAnyEqH rD rA rB s
  | .lvAnyGeB rD rA rB => Sys2Proof.Machine.execLvAnyGeB rD rA rB s
  | .lvAnyGeH rD rA rB => Sys2Proof.Machine.execLvAnyGeH rD rA rB s
  | .lvAnyGtB rD rA rB => Sys2Proof.Machine.execLvAnyGtB rD rA rB s
  | .lvAnyGtH rD rA rB => Sys2Proof.Machine.execLvAnyGtH rD rA rB s
  | .lvAnyLeB rD rA rB => Sys2Proof.Machine.execLvAnyLeB rD rA rB s
  | .lvAnyLeH rD rA rB => Sys2Proof.Machine.execLvAnyLeH rD rA rB s
  | .lvAnyLtB rD rA rB => Sys2Proof.Machine.execLvAnyLtB rD rA rB s
  | .lvAnyLtH rD rA rB => Sys2Proof.Machine.execLvAnyLtH rD rA rB s
  | .lvAnyNeB rD rA rB => Sys2Proof.Machine.execLvAnyNeB rD rA rB s
  | .lvAnyNeH rD rA rB => Sys2Proof.Machine.execLvAnyNeH rD rA rB s
  | .lvAvgB rD rA rB => Sys2Proof.Machine.execLvAvgB rD rA rB s
  | .lvAvgH rD rA rB => Sys2Proof.Machine.execLvAvgH rD rA rB s
  | .lvCmpEqB rD rA rB => Sys2Proof.Machine.execLvCmpEqB rD rA rB s
  | .lvCmpEqH rD rA rB => Sys2Proof.Machine.execLvCmpEqH rD rA rB s
  | .lvCmpGeB rD rA rB => Sys2Proof.Machine.execLvCmpGeB rD rA rB s
  | .lvCmpGeH rD rA rB => Sys2Proof.Machine.execLvCmpGeH rD rA rB s
  | .lvCmpGtB rD rA rB => Sys2Proof.Machine.execLvCmpGtB rD rA rB s
  | .lvCmpGtH rD rA rB => Sys2Proof.Machine.execLvCmpGtH rD rA rB s
  | .lvCmpLeB rD rA rB => Sys2Proof.Machine.execLvCmpLeB rD rA rB s
  | .lvCmpLeH rD rA rB => Sys2Proof.Machine.execLvCmpLeH rD rA rB s
  | .lvCmpLtB rD rA rB => Sys2Proof.Machine.execLvCmpLtB rD rA rB s
  | .lvCmpLtH rD rA rB => Sys2Proof.Machine.execLvCmpLtH rD rA rB s
  | .lvCmpNeB rD rA rB => Sys2Proof.Machine.execLvCmpNeB rD rA rB s
  | .lvCmpNeH rD rA rB => Sys2Proof.Machine.execLvCmpNeH rD rA rB s
  | .lvCust1 hi lo => Sys2Proof.Machine.execLvCust1 hi lo s
  | .lvCust2 hi lo => Sys2Proof.Machine.execLvCust2 hi lo s
  | .lvCust3 hi lo => Sys2Proof.Machine.execLvCust3 hi lo s
  | .lvCust4 hi lo => Sys2Proof.Machine.execLvCust4 hi lo s
  | .lvMaddsH rD rA rB => Sys2Proof.Machine.execLvMaddsH rD rA rB s
  | .lvMaxB rD rA rB => Sys2Proof.Machine.execLvMaxB rD rA rB s
  | .lvMaxH rD rA rB => Sys2Proof.Machine.execLvMaxH rD rA rB s
  | .lvMergeB rD rA rB => Sys2Proof.Machine.execLvMergeB rD rA rB s
  | .lvMergeH rD rA rB => Sys2Proof.Machine.execLvMergeH rD rA rB s
  | .lvMinB rD rA rB => Sys2Proof.Machine.execLvMinB rD rA rB s
  | .lvMinH rD rA rB => Sys2Proof.Machine.execLvMinH rD rA rB s
  | .lvMsubsH rD rA rB => Sys2Proof.Machine.execLvMsubsH rD rA rB s
  | .lvMulsH rD rA rB => Sys2Proof.Machine.execLvMulsH rD rA rB s
  | .lvNand rD rA rB => Sys2Proof.Machine.execLvNand rD rA rB s
  | .lvNor rD rA rB => Sys2Proof.Machine.execLvNor rD rA rB s
  | .lvOr rD rA rB => Sys2Proof.Machine.execLvOr rD rA rB s
  | .lvPackB rD rA rB => Sys2Proof.Machine.execLvPackB rD rA rB s
  | .lvPackH rD rA rB => Sys2Proof.Machine.execLvPackH rD rA rB s
  | .lvPacksB rD rA rB => Sys2Proof.Machine.execLvPacksB rD rA rB s
  | .lvPacksH rD rA rB => Sys2Proof.Machine.execLvPacksH rD rA rB s
  | .lvPackusB rD rA rB => Sys2Proof.Machine.execLvPackusB rD rA rB s
  | .lvPackusH rD rA rB => Sys2Proof.Machine.execLvPackusH rD rA rB s
  | .lvPermN rD rA rB => Sys2Proof.Machine.execLvPermN rD rA rB s
  | .lvRlB rD rA rB => Sys2Proof.Machine.execLvRlB rD rA rB s
  | .lvRlH rD rA rB => Sys2Proof.Machine.execLvRlH rD rA rB s
  | .lvSll rD rA rB => Sys2Proof.Machine.execLvSll rD rA rB s
  | .lvSllB rD rA rB => Sys2Proof.Machine.execLvSllB rD rA rB s
  | .lvSllH rD rA rB => Sys2Proof.Machine.execLvSllH rD rA rB s
  | .lvSraB rD rA rB => Sys2Proof.Machine.execLvSraB rD rA rB s
  | .lvSraH rD rA rB => Sys2Proof.Machine.execLvSraH rD rA rB s
  | .lvSrl rD rA rB => Sys2Proof.Machine.execLvSrl rD rA rB s
  | .lvSrlB rD rA rB => Sys2Proof.Machine.execLvSrlB rD rA rB s
  | .lvSrlH rD rA rB => Sys2Proof.Machine.execLvSrlH rD rA rB s
  | .lvSubB rD rA rB => Sys2Proof.Machine.execLvSubB rD rA rB s
  | .lvSubH rD rA rB => Sys2Proof.Machine.execLvSubH rD rA rB s
  | .lvSubsB rD rA rB => Sys2Proof.Machine.execLvSubsB rD rA rB s
  | .lvSubsH rD rA rB => Sys2Proof.Machine.execLvSubsH rD rA rB s
  | .lvSubuB rD rA rB => Sys2Proof.Machine.execLvSubuB rD rA rB s
  | .lvSubuH rD rA rB => Sys2Proof.Machine.execLvSubuH rD rA rB s
  | .lvSubusB rD rA rB => Sys2Proof.Machine.execLvSubusB rD rA rB s
  | .lvSubusH rD rA rB => Sys2Proof.Machine.execLvSubusH rD rA rB s
  | .lvUnpackB rD rA rB => Sys2Proof.Machine.execLvUnpackB rD rA rB s
  | .lvUnpackH rD rA rB => Sys2Proof.Machine.execLvUnpackH rD rA rB s
  | .lvXor rD rA rB => Sys2Proof.Machine.execLvXor rD rA rB s

end Sys2Proof.Machine
end

