-- ==== Sys2Proof/Machine/Fetch.lean ====
section
/-! DEFINITION. What stands around the execution of one instruction: the inputs at the boundary,
the interrupts, the fetch, and the decoding (R76, R115, R512, R515). -/

namespace Sys2Proof.Machine

/-- What the outside does before the coming step (R515, R92). -/
def nextInput (s : State) : Input :=
  match s.inputs with
  | [] => Input.none
  | i :: _ => i

/-- The bytes another agent writes, in order (R92). -/
def writeCells (m : List Host.Cell) (cs : List Host.Cell) : List Host.Cell :=
  cs.foldl (fun m c => writeByte m c.1 c.2) m

/-- The reservation after another agent's writes (R88 c). -/
def resvAfterCells (resv : Option Nat) (cs : List Host.Cell) : Option Nat :=
  cs.foldl (fun r c => resvAfterWrite r c.1 1) resv

/-- The state at an instruction boundary: the coming input is taken in (R88, R92). -/
def takeInput (s : State) : State :=
  { s with
    inputs := s.inputs.tail
    mem    := writeCells s.mem (nextInput s).writes
    resv   := if (nextInput s).loseResv then none else resvAfterCells s.resv (nextInput s).writes }

/-- The interrupt taken at a boundary, external before tick (R512, R515). -/
def pendingInterrupt (i : Input) (s : State) : Option Exc :=
  if i.ext && s.srBit srIEE then some .externalInterrupt
  else if i.tick && s.srBit srTEE then some .tickTimer
  else none

/-- The `i`-th register a reset leaves unspecified, as a free value of `XLEN` bits (R560, log entry 4). -/
def State.resetFree (s : State) (i : Nat) : BitVec 64 := s.trunc (Config.freeWord (s.draws + i))

/-- The reset input during a run (R512, R560): the assignments of R560 to whatever state there is, and
every register R561 leaves unspecified a free value. Memory is as it was. -/
def warmReset (s : State) : State :=
  { resetWith s.cfg with
    regs     := Vector.ofFn fun i => s.resetFree i
    ppc      := s.pc
    epcr     := s.resetFree 32
    esr      := (s.resetFree 33).setWidth 32
    eear     := s.resetFree 34
    machi    := (s.resetFree 35).setWidth 32
    maclo    := (s.resetFree 36).setWidth 32
    fpmaddhi := (s.resetFree 37).setWidth 32
    fpmaddlo := (s.resetFree 38).setWidth 32
    vmachi   := Config.freeWord (s.draws + 39)
    vmaclo   := Config.freeWord (s.draws + 40)
    mem      := s.mem
    stale    := s.stale
    inputs   := s.inputs
    draws    := s.draws + 41 }

/-- What happens at an instruction boundary before the fetch (R512). -/
inductive Boundary where
  | reset
  | interrupt (e : Exc)
  | nothing
  deriving DecidableEq, Repr

/-- Reset before an interrupt (R512). -/
def boundary (i : Input) (s : State) : Boundary :=
  if i.reset then .reset
  else
    match pendingInterrupt i s with
    | some e => .interrupt e
    | none => .nothing

/-- What a fetch gives (R76, R90). -/
inductive Fetched where
  | bytes (bs : List Byte)
  | exc (e : Exc)
  | stale
  deriving DecidableEq, Repr

/-- `Fetch(pc)` (R76): the checks of R83, then four bytes; under `FETCH_STALE` none of them may have
been stored to since the last synchronisation (R90). -/
def fetch (s : State) : Fetched :=
  match access s .fetch 4 s.pc with
  | .error e => .exc e
  | .ok pa =>
    if s.cfg.fetchStale && (List.range 4).any fun i => s.stale.contains (pa + i) then .stale
    else .bytes (readBytes s.mem pa 4)

/-- What the fetched bytes do (R115): an instruction executes; a word with reserved bits set is
refused (R111); an unassigned one is an illegal instruction (R112). -/
def runBytes (bs : List Byte) (s : State) : Outcome :=
  match decode bs with
  | .instr i => exec i s
  | .reserved m => .refused (.reservedBits m)
  | .unassigned => raise s .illegalInstruction
  | .truncated => raise s .illegalInstruction

/-- Fetch and run the instruction at the pc. -/
def runInstruction (s : State) : Outcome :=
  match fetch s with
  | .bytes bs => runBytes bs s
  | .exc e => raise s e
  | .stale => .refused .staleFetch

/-- Where `fetch` reads the instruction from. -/
def fetchAddr (s : State) : Nat :=
  match translate s .fetch s.pc with
  | .to pa => pa
  | _ => s.pc.toNat

/-- The state with a word placed where the next step fetches, and nothing in the way of it: no
input is left, and the four bytes are not stale. -/
def placeWord (s : State) (w : InsnWord) : State :=
  { s with
    mem    := writeBytes s.mem (fetchAddr s) (bytesOfWord w)
    inputs := []
    stale  := s.stale.filter fun a => decide (a < fetchAddr s) || decide (fetchAddr s + 4 ≤ a) }

end Sys2Proof.Machine
end

