-- ==== Sys2Proof/Machine/Step.lean ====
section
/-! DEFINITION. One step of the machine, and the placing of one instruction where it fetches. -/

namespace Sys2Proof.Machine

/-- One step (R27, R512): the input at the boundary, then the reset if it is asserted, an interrupt if
one is pending and enabled, else the instruction at the pc. -/
def step (s : State) : Host.Outcome State Fault Refusal :=
  match boundary (nextInput s) (takeInput s) with
  | .reset => .next (warmReset (takeInput s))
  | .interrupt e => raise (takeInput s) e
  | .nothing => runInstruction (takeInput s)

/-- `s` with the instruction word `w` of `nbits` bits stored where the next step fetches. -/
def State.withFetchWord (s : State) (nbits w : Nat) : State := placeWord s (BitVec.ofNat 32 (w % 2 ^ nbits))

end Sys2Proof.Machine
end

