-- ==== Sys2Proof/Safety.lean ====
section
/-! DEFINITION. The terms claims are stated in: registers as integers, the frame of an instruction,
what completing, jumping, trapping and taking an exception mean, and the invariant of the machine. -/

namespace Sys2Proof.Machine

/-! ### Values -/

/-- `u(x[r])` and `s(x[r])` (R10). -/
def State.uval (s : State) (r : RegNum) : Nat := (s.reg r).toNat
def State.sval (s : State) (r : RegNum) : Int := (s.reg r).toInt

/-- An integer as the unsigned value of its `w`-bit pattern. -/
def wrap (w : Nat) (i : Int) : Nat := (i % 2 ^ w).toNat

/-- Not a signed number of `w` bits. -/
def OutOfRange (w : Nat) (i : Int) : Prop := i < -(2 ^ (w - 1)) ∨ 2 ^ (w - 1) - 1 < i

/-- The carry flag as a number. -/
def State.carry (s : State) : Nat := s.flagCY.toNat

/-- The number `n` bytes of memory from `a` up spell, the lowest address most significant (R74). -/
def memNat (m : List Host.Cell) (a n : Nat) : Nat :=
  match n with
  | 0 => 0
  | k + 1 => (readByte m a).toNat * 256 ^ k + memNat m (a + 1) k

/-- The low `k` bits of a number as a signed number, in `w` bits. -/
def signedLow (w k v : Nat) : Nat :=
  if v % 2 ^ k < 2 ^ (k - 1) then v % 2 ^ k else v % 2 ^ k + 2 ^ w - 2 ^ k

/-- The accumulator as an unsigned and as a signed number (R250). -/
def State.accU (s : State) : Nat := s.machi.toNat * 2 ^ 32 + s.maclo.toNat
def State.accS (s : State) : Int := if s.accU < 2 ^ 63 then s.accU else (s.accU : Int) - 2 ^ 64

/-- Element `i` of `w` bits, unsigned and signed (R351, R352). -/
def elemU (w i v : Nat) : Nat := v / 2 ^ (w * i) % 2 ^ w
def elemS (w i v : Nat) : Int :=
  if elemU w i v < 2 ^ (w - 1) then elemU w i v else (elemU w i v : Int) - 2 ^ w

/-! ### Frames -/

/-- A part of the state an instruction may write. The pc, PPC and the pending jump are stated apart. -/
inductive Part where
  | reg (r : RegNum)
  | sr (i : Nat)
  | epcr
  | esr
  | eear
  | evbar
  | aecr
  | aesr
  | machi
  | maclo
  | fpcsr
  | fpmadd
  | vmac
  | resv
  | mem
  | stale
  | draws
  deriving DecidableEq, Repr

/-- Everything but the parts `w` is as before: every register, every bit of SR, every special register,
every accumulator, the reservation, every byte of memory, the inputs to come, the configuration. -/
def Frame (w : List Part) (s t : State) : Prop :=
  t.cfg = s.cfg ∧ t.inputs = s.inputs ∧
  (∀ r, Part.reg r ∉ w → t.regs.get r.toFin = s.regs.get r.toFin) ∧
  (∀ i, Part.sr i ∉ w → t.srBit i = s.srBit i) ∧
  (Part.epcr ∉ w → t.epcr = s.epcr) ∧
  (Part.esr ∉ w → t.esr = s.esr) ∧
  (Part.eear ∉ w → t.eear = s.eear) ∧
  (Part.evbar ∉ w → t.evbar = s.evbar) ∧
  (Part.aecr ∉ w → t.aecr = s.aecr) ∧
  (Part.aesr ∉ w → t.aesr = s.aesr) ∧
  (Part.machi ∉ w → t.machi = s.machi) ∧
  (Part.maclo ∉ w → t.maclo = s.maclo) ∧
  (Part.fpcsr ∉ w → t.fpcsr = s.fpcsr) ∧
  (Part.fpmadd ∉ w → t.fpmaddhi = s.fpmaddhi ∧ t.fpmaddlo = s.fpmaddlo) ∧
  (Part.vmac ∉ w → t.vmachi = s.vmachi ∧ t.vmaclo = s.vmaclo) ∧
  (Part.resv ∉ w → t.resv = s.resv) ∧
  (Part.mem ∉ w → ∀ a, readByte t.mem a = readByte s.mem a) ∧
  (Part.stale ∉ w → t.stale = s.stale) ∧
  (Part.draws ∉ w → t.draws = s.draws)

/-! ### Completing -/

/-- The next instruction is the pending target, or the one after this (R27). -/
def Advanced (s t : State) : Prop :=
  t.ds = none ∧ t.ppc = s.pc ∧
  (∀ x, s.ds = some x → t.pc = x) ∧
  (s.ds = none → t.pc.toNat = (s.pc.toNat + 4) % 2 ^ s.width)

/-- The instruction completes, writing at most the parts `w`, with the effect `post`. -/
def Completes (i : Instr) (s : State) (w : List Part) (post : State → Prop) : Prop :=
  ∃ t, exec i s = .next t ∧ Advanced s t ∧ Frame w s t ∧ post t

/-- A packed instruction's completion: `x[rD]` is the number whose elements of `w` bits are given, and nothing else changes
(R350, R351). -/
def VectorCompletes (i : Instr) (s : State) (rD : RegNum) (w : Nat) (elem : Nat → Nat) : Prop :=
  Completes i s [.reg rD] fun t => ∀ k < 64 / w, elemU w k (t.uval rD) = elem k

/-- The instruction takes a jump to `target` (R201), writing at most the parts `w`. -/
def Jumps (i : Instr) (s : State) (target : Nat) (w : List Part) (post : State → Prop) : Prop :=
  ∃ t, exec i s = .next t ∧ t.ppc = s.pc ∧ Frame w s t ∧ post t ∧
    (s.cfg.nd = true → t.ds = none ∧ t.pc.toNat = target) ∧
    (s.cfg.nd = false → t.pc.toNat = (s.pc.toNat + 4) % 2 ^ s.width ∧
      ∃ x, t.ds = some x ∧ x.toNat = target)

/-! ### Exceptions -/

/-- The vector of an offset (R506). -/
def vectorOf (s : State) (offset : Nat) : Nat :=
  (if s.srBit srEPH then 0xF0000000 else 0) |||
    (if s.cfg.evbarp then s.evbar.toNat &&& 0xFFFFE000 else 0) ||| offset

/-- The address an exception resumes at (R508): the jump's own address in a delay slot, else the instruction
or the one after it. -/
def resumeAt (s : State) (r : Resume) : Nat :=
  wrap s.width ((s.pc.toNat : Int) + if s.ds.isSome then -4 else if r = .next then 4 else 0)

/-- `t` is `u` after the exception entry of R507, through the row `e` of the exception table: what entry
writes has the value entry gives it, and all else is as in `u` (PPC: log entry 9). -/
def Enters (u t : State) (e : ExcEntry) : Prop :=
  Frame [.sr srSM, .sr srIEE, .sr srTEE, .sr srDME, .sr srIME, .sr srOVE, .sr srDSX,
    .epcr, .esr, .eear, .resv] u t ∧
  t.esr = u.sr ∧ t.epcr.toNat = resumeAt u e.resume ∧ t.pc.toNat = vectorOf u e.offset.toNat ∧ t.ppc = u.pc ∧
  t.ds = none ∧ t.resv = none ∧
  t.srBit srSM = true ∧ t.srBit srIEE = false ∧ t.srBit srTEE = false ∧ t.srBit srDME = false ∧
  t.srBit srIME = false ∧ t.srBit srOVE = false ∧ t.srBit srDSX = u.ds.isSome

/-- The outcome `o` is the exception `x`, raised in the state `u`: it is taken through the row `e` of the
exception table with `eear` in EEAR, or, under the fault reading, the run ends naming it and the pc (R12,
R517). -/
def RaisedIn (u : State) (x : Exc) (e : ExcEntry) (eear : BitVec 64) (o : Outcome) : Prop :=
  (u.cfg.excReading = .taken → ∃ t, o = .next t ∧ Enters u t e ∧ t.eear = eear) ∧
  (u.cfg.excReading = .fault → o = .fault (.raised x u.pc))

/-- The instruction does nothing but raise IllegalInstruction (R113, R500). EEAR is the pc where the
configuration says so, else as before (R509, log entry 11). -/
def RaisesIllegal (i : Instr) (s : State) : Prop :=
  RaisedIn s .illegalInstruction s.cfg.exceptions.illegalInstruction
    (if s.cfg.illegalEear then s.pc else s.eear) (exec i s)

/-! ### Range exceptions -/

/-- The event with bit `e` of AECR raises the range exception when it happens (R503). -/
def RangeEnabled (s : State) (e : Nat) : Prop :=
  s.srBit srOVE = true ∧
    (if s.cfg.aecsrp then s.aecr.getLsbD e else s.cfg.aecrAbsentMask.getLsbD e) = true

/-- One of the events, each with the condition under which it happens, raises the exception. -/
def RangeTaken (s : State) (evs : List (Nat × Prop)) : Prop := ∃ e ∈ evs, e.2 ∧ RangeEnabled s e.1

/-- The enabled events that happened are added to AESR, where it is present (R503). -/
def AesrRecords (s u : State) (evs : List (Nat × Prop)) : Prop :=
  ∀ k, u.aesr.getLsbD k = true ↔
    s.aesr.getLsbD k = true ∨ (s.cfg.aecsrp = true ∧ ∃ e ∈ evs, e.1 = k ∧ e.2 ∧ RangeEnabled s k)

/-- The instruction has its effect and then raises the range exception: `u` is the state in which it is
raised, with the result and the flags written (R503). -/
def TrapsRange (i : Instr) (s : State) (w : List Part) (evs : List (Nat × Prop)) (post : State → Prop) : Prop :=
  ∃ u, Frame (.aesr :: w) s u ∧ u.pc = s.pc ∧ u.ds = s.ds ∧ post u ∧ AesrRecords s u evs ∧
    RaisedIn u .range u.cfg.exceptions.range s.eear (exec i s)

/-- An instruction that reports events: it completes when none of them raises, and otherwise has the
same effect and traps. -/
def ArithOutcome (i : Instr) (s : State) (w : List Part) (evs : List (Nat × Prop)) (post : State → Prop) : Prop :=
  (¬ RangeTaken s evs → Completes i s w post) ∧ (RangeTaken s evs → TrapsRange i s w evs post)

/-! ### Floating point -/

/-- A finite pattern of a format. -/
def FpFinite (f : FpFormat) (x : Nat) : Prop := x < 2 ^ f.width ∧ fpExp f x < f.emax

/-- The finite pattern `r` is the exact value `num / den` (in the format's units, `0 < den`) rounded in
the mode `rm` (R300): nearest with ties to the even pattern, toward zero, up, down. -/
def RoundsTo (f : FpFormat) (rm : Rounding) (num : Int) (den r : Nat) : Prop :=
  FpFinite f r ∧
  match rm with
  | .nearest => ∀ p, FpFinite f p →
      (fpVal f r * den - num).natAbs ≤ (fpVal f p * den - num).natAbs ∧
      ((fpVal f r * den - num).natAbs = (fpVal f p * den - num).natAbs → fpVal f p ≠ fpVal f r → r % 2 = 0)
  | .zero => (fpVal f r).natAbs * den ≤ num.natAbs ∧ 0 ≤ fpVal f r * num ∧
      ∀ p, FpFinite f p → (fpVal f p).natAbs * den ≤ num.natAbs → (fpVal f p).natAbs ≤ (fpVal f r).natAbs
  | .up => num ≤ fpVal f r * den ∧ ∀ p, FpFinite f p → num ≤ fpVal f p * den → fpVal f r ≤ fpVal f p
  | .down => fpVal f r * den ≤ num ∧ ∀ p, FpFinite f p → fpVal f p * den ≤ num → fpVal f p ≤ fpVal f r

/-- The integer `j` is the value `num / den` rounded in the mode `rm` (R300). -/
def RoundsToInt (rm : Rounding) (num : Int) (den : Nat) (j : Int) : Prop :=
  match rm with
  | .nearest => 2 * (j * den - num).natAbs ≤ den ∧ (2 * (j * den - num).natAbs = den → j % 2 = 0)
  | .zero => j.natAbs * den ≤ num.natAbs ∧ num.natAbs < (j.natAbs + 1) * den ∧ 0 ≤ j * num
  | .up => num ≤ j * den ∧ (j - 1) * den < num
  | .down => j * den ≤ num ∧ num < (j + 1) * den

/-- The exact value `num / den` is beyond the finite numbers of the format in the mode `rm`: rounded as if
exponents had no bound, it exceeds the largest one (R300, IEEE 754). In units, `2 ^ (emax - 1 + frac)` is
the number that would follow the largest one, and `2 ^ (emax - 2)` the distance to it. -/
def FpOverflows (f : FpFormat) (rm : Rounding) (num : Int) (den : Nat) : Prop :=
  let limit := 2 ^ (f.emax - 1 + f.frac)
  let gap := 2 ^ (f.emax - 2)
  match rm with
  | .nearest => (2 * limit - gap) * den ≤ 2 * num.natAbs
  | .zero => limit * den ≤ num.natAbs
  | .up => if 0 < num then (limit - gap) * den < num.natAbs else limit * den ≤ num.natAbs
  | .down => if num < 0 then (limit - gap) * den < num.natAbs else limit * den ≤ num.natAbs

/-- The exact value `num / den` is tiny: below the least normal number, which is `2 ^ frac` units, before
rounding; or, where tininess is detected after rounding (log entry 17), also when it is rounded to the
precision as if exponents had no bound, the last place being then half a unit. -/
def FpTiny (f : FpFormat) (after : Bool) (rm : Rounding) (num : Int) (den : Nat) : Prop :=
  num.natAbs < 2 ^ f.frac * den ∧ (after = true → ¬ RoundsToInt rm (2 * num) den (num.sign * 2 ^ (f.frac + 1)))

/-- What an operation delivers whose exact result is `num / den` units, not zero (R300, IEEE 754; log entry
18): on overflow, OVF and IXF with an infinity or the largest finite number, as the mode says; else
the rounded number with the sign of the exact one, IXF exactly where it is not exact, UNF exactly where it
is moreover tiny, and no other flag. -/
def FpDelivers (f : FpFormat) (tinyAfter : Bool) (rm : Rounding) (num : Int) (den : Nat) (r : FpResult) : Prop :=
  (FpOverflows f rm num den →
    r.flags = flOVF ||| flIXF ∧
    (rm = .nearest ∨ rm = .up ∧ 0 < num ∨ rm = .down ∧ num < 0 → r.bits = fpPattern f (decide (num < 0)) (fpInfMag f)) ∧
    (rm = .zero ∨ rm = .up ∧ num < 0 ∨ rm = .down ∧ 0 < num → r.bits = fpPattern f (decide (num < 0)) (fpInfMag f - 1))) ∧
  (¬ FpOverflows f rm num den →
    RoundsTo f rm num den r.bits ∧ (fpNeg f r.bits = true ↔ num < 0) ∧
    (r.flags.getLsbD 5 = true ↔ fpVal f r.bits * den ≠ num) ∧
    (r.flags.getLsbD 1 = true ↔ fpVal f r.bits * den ≠ num ∧ FpTiny f tinyAfter rm num den) ∧
    ∀ k, k ≠ 1 → k ≠ 5 → r.flags.getLsbD k = false)

/-- Flag `k` of the nine, FPCSR[k + 3], is the class of the pattern `v` (R56, R300): SNF of a signalling NaN (exponent
all ones, the top fraction bit clear, the fraction not zero), QNF of a quiet one (the top fraction bit
set), ZF of a zero, INF of an infinity. -/
def FpClass (f : FpFormat) (v k : Nat) : Prop :=
  (k = 2 ∧ fpExp f v = f.emax ∧ 0 < fpFrac f v ∧ fpFrac f v < 2 ^ (f.frac - 1)) ∨
  (k = 3 ∧ fpExp f v = f.emax ∧ 2 ^ (f.frac - 1) ≤ fpFrac f v) ∨
  (k = 4 ∧ fpExp f v = 0 ∧ fpFrac f v = 0) ∨
  (k = 7 ∧ fpExp f v = f.emax ∧ fpFrac f v = 0)

/-- The end of a floating-point instruction with the effect `post` and the flags `fl`, ORed into FPCSR[11:3]
(R302): it completes, or, where FPEE is set and a flag is raised, the floating-point exception is raised. -/
def FpEnds (i : Instr) (s : State) (w : List Part) (fl : BitVec 9) (post : State → Prop) : Prop :=
  let done : State → Prop := fun t => post t ∧ t.fpcsr.toNat = (s.fpcsr.toNat ||| fl.toNat * 8)
  (s.fpcsr.getLsbD 0 = false ∨ fl = 0#9 → Completes i s w done) ∧
  (s.fpcsr.getLsbD 0 = true → fl ≠ 0#9 →
    ∃ u, Frame w s u ∧ u.pc = s.pc ∧ u.ds = s.ds ∧ done u ∧
      RaisedIn u .floatingPoint u.cfg.exceptions.floatingPoint s.eear (exec i s))

/-- The end of a floating-point instruction that writes `v` to `x[rD]` (R301, R302). -/
def FpOutcome (i : Instr) (s : State) (rD : RegNum) (w : List Part) (v : Nat) (fl : BitVec 9) : Prop :=
  FpEnds i s w fl fun t => t.uval rD = v

/-! ### The instructions of the optional units of `lf.` and `lv.` -/

/-- The `.s` instructions of the floating-point unit, but the custom one (R301). -/
def singleInstrs (rD rA rB : RegNum) : List Instr :=
  [.lfAddS rD rA rB, .lfDivS rD rA rB, .lfFtoiS rD rA, .lfItofS rD rA, .lfMaddS rD rA rB, .lfMulS rD rA rB,
   .lfRemS rD rA rB, .lfSfeqS rA rB, .lfSfgeS rA rB, .lfSfgtS rA rB, .lfSfleS rA rB, .lfSfltS rA rB, .lfSfneS rA rB,
   .lfSubS rD rA rB]

/-- The `.d` instructions of the floating-point unit, but the custom one (R301). -/
def doubleInstrs (rD rA rB : RegNum) : List Instr :=
  [.lfAddD rD rA rB, .lfDivD rD rA rB, .lfFtoiD rD rA, .lfItofD rD rA, .lfMaddD rD rA rB, .lfMulD rD rA rB,
   .lfRemD rD rA rB, .lfSfeqD rA rB, .lfSfgeD rA rB, .lfSfgtD rA rB, .lfSfleD rA rB, .lfSfltD rA rB, .lfSfneD rA rB,
   .lfSubD rD rA rB]

/-- The packed instructions, but the custom ones (R350). -/
def vectorInstrs (rD rA rB : RegNum) : List Instr :=
  [.lvAddB rD rA rB, .lvAddH rD rA rB, .lvAddsB rD rA rB, .lvAddsH rD rA rB, .lvAdduB rD rA rB, .lvAdduH rD rA rB,
   .lvAddusB rD rA rB, .lvAddusH rD rA rB, .lvAllEqB rD rA rB, .lvAllEqH rD rA rB, .lvAllGeB rD rA rB,
   .lvAllGeH rD rA rB, .lvAllGtB rD rA rB, .lvAllGtH rD rA rB, .lvAllLeB rD rA rB, .lvAllLeH rD rA rB,
   .lvAllLtB rD rA rB, .lvAllLtH rD rA rB, .lvAllNeB rD rA rB, .lvAllNeH rD rA rB, .lvAnd rD rA rB,
   .lvAnyEqB rD rA rB, .lvAnyEqH rD rA rB, .lvAnyGeB rD rA rB, .lvAnyGeH rD rA rB, .lvAnyGtB rD rA rB,
   .lvAnyGtH rD rA rB, .lvAnyLeB rD rA rB, .lvAnyLeH rD rA rB, .lvAnyLtB rD rA rB, .lvAnyLtH rD rA rB,
   .lvAnyNeB rD rA rB, .lvAnyNeH rD rA rB, .lvAvgB rD rA rB, .lvAvgH rD rA rB, .lvCmpEqB rD rA rB, .lvCmpEqH rD rA rB,
   .lvCmpGeB rD rA rB, .lvCmpGeH rD rA rB, .lvCmpGtB rD rA rB, .lvCmpGtH rD rA rB, .lvCmpLeB rD rA rB,
   .lvCmpLeH rD rA rB, .lvCmpLtB rD rA rB, .lvCmpLtH rD rA rB, .lvCmpNeB rD rA rB, .lvCmpNeH rD rA rB,
   .lvMaddsH rD rA rB, .lvMaxB rD rA rB, .lvMaxH rD rA rB, .lvMergeB rD rA rB, .lvMergeH rD rA rB, .lvMinB rD rA rB,
   .lvMinH rD rA rB, .lvMsubsH rD rA rB, .lvMulsH rD rA rB, .lvNand rD rA rB, .lvNor rD rA rB, .lvOr rD rA rB,
   .lvPackB rD rA rB, .lvPackH rD rA rB, .lvPacksB rD rA rB, .lvPacksH rD rA rB, .lvPackusB rD rA rB,
   .lvPackusH rD rA rB, .lvPermN rD rA rB, .lvRlB rD rA rB, .lvRlH rD rA rB, .lvSll rD rA rB, .lvSllB rD rA rB,
   .lvSllH rD rA rB, .lvSraB rD rA rB, .lvSraH rD rA rB, .lvSrl rD rA rB, .lvSrlB rD rA rB, .lvSrlH rD rA rB,
   .lvSubB rD rA rB, .lvSubH rD rA rB, .lvSubsB rD rA rB, .lvSubsH rD rA rB, .lvSubuB rD rA rB, .lvSubuH rD rA rB,
   .lvSubusB rD rA rB, .lvSubusH rD rA rB, .lvUnpackB rD rA rB, .lvUnpackH rD rA rB, .lvXor rD rA rB]

/-! ### The invariant -/

/-- The upper half of a register, zero at `XLEN = 32`. -/
def Narrow (s : State) (v : BitVec 64) : Prop := v.toNat < 2 ^ s.width

/-- What every state of a run satisfies: memory is in canonical form; SR has its fixed bits (R36) and none the spec
refuses in it (R77, R79, R91); EVBAR, AECR and AESR have their reserved bits zero (R44, R45, R46); every
register of `XLEN` bits is one (R20, R25, R26, R50, R52); a machine without delay slots has none
pending (R48); a reservation without an MMU is on an aligned word (R86). Four clauses rest on choices of the
model: that `l.rfe` refuses an ESR with a refused bit (log entry 13, DEDUCED); that FPCSR has no bit
above 11 (log entry 16, DESIGN CHOICE; R56 names bits 11:0); that AECR and AESR have no bit of an absent
unit (log entry 22, DEDUCED); and that registers of `XLEN` bits are held in 64 (log entry 28, DESIGN CHOICE). -/
def Inv (s : State) : Prop :=
  Memory.wf s.mem = true ∧
  s.sr &&& 0x0FFE0000#32 = 0#32 ∧ s.srBit srFO = true ∧ refusedSr s.cfg s.sr = false ∧
  s.evbar &&& 0x1FFF#32 = 0#32 ∧
  s.aecr &&& ~~~(aecrBits s.cfg).setWidth 32 = 0#32 ∧ s.aesr &&& ~~~(aecrBits s.cfg).setWidth 32 = 0#32 ∧
  s.fpcsr.toNat < 2 ^ 12 ∧
  (∀ r : Fin 32, Narrow s (s.regs.get r)) ∧
  Narrow s s.pc ∧ Narrow s s.ppc ∧ (∀ x, s.ds = some x → Narrow s x) ∧ Narrow s s.epcr ∧ Narrow s s.eear ∧
  (s.cfg.nd = true → s.ds = none) ∧
  (s.cfg.hasMmu = false → ∀ r, s.resv = some r → r % 4 = 0)

/-- No reset, no interrupt and nothing written from outside is to come: the default of R515 and D23. -/
def Quiet (s : State) : Prop := ∀ i ∈ s.inputs, i = Input.none

end Sys2Proof.Machine
end

