-- ==== Sys2Proof/Certificates/Slice0/Obligations.lean ====
section
/-! DEFINITION. The statements for the provers, in the terms of Safety.lean. Each says in its docstring
which rules of spec/ it formalises; OBLIGATIONS.json says the same with their quotes. -/

open Sys2Proof Sys2Proof.Machine

/-! ### Encoding -/

/-- Decoding an encoded instruction gives it back, whatever its operands (R103, R104, R115). -/
def Obligations.DecodeEncodeAgree : Prop := ∀ i : Instr, decode (encodeBytes i) = .instr i

/-- A word that decodes to an instruction is the encoding of that instruction: each instruction has one
word (R111, R115). -/
def Obligations.EncodeDecodeAgree : Prop :=
  ∀ (w : InsnWord) (i : Instr), decodeWord w = .instr i → encode i = w

/-- No word has the identifying bits of two rows, and no row's identifying and reserved bits overlap
(R115: the rows are pairwise disjoint). -/
def Obligations.OpcodeRowsDisjoint : Prop :=
  (∀ (w : InsnWord), ∀ r ∈ opcodeTable, ∀ q ∈ opcodeTable, w &&& r.mask = r.pattern → w &&& q.mask = q.pattern →
    r.mnemonic = q.mnemonic) ∧
  ∀ r ∈ opcodeTable, r.mask &&& r.reserved = 0#32 ∧ r.pattern &&& r.mask = r.pattern

/-- Words written out from the encodings of the spec decode to the instructions they stand for: the formats of R104,
the codes of R105 (`l.sw`, `l.mtspr`, `l.j`), R106 (`l.add`), R107 (`l.sfles`), R108 (`l.srai`, `l.macrc`), R109
(`lf.div.d`) and R110 (`lv.sll`). -/
def Obligations.SampleWordsDecode : Prop :=
  decode [0xE0#8, 0x61#8, 0x10#8, 0x00#8] = .instr (.lAdd 3 1 2) ∧
  decode [0xD7#8, 0xE1#8, 0x17#8, 0xFC#8] = .instr (.lSw 1 2 0xFFFC) ∧
  decode [0xC0#8, 0xA0#8, 0x28#8, 0x01#8] = .instr (.lMtspr 0 5 0x2801) ∧
  decode [0xE5#8, 0xA1#8, 0x10#8, 0x00#8] = .instr (.lSfles 1 2) ∧
  decode [0xB8#8, 0x61#8, 0x00#8, 0xBF#8] = .instr (.lSrai 3 1 63) ∧
  decode [0x03#8, 0xFF#8, 0xFF#8, 0xFF#8] = .instr (.lJ 0x3FFFFFF) ∧
  decode [0x18#8, 0x61#8, 0x00#8, 0x00#8] = .instr (.lMacrc 3) ∧
  decode [0xC8#8, 0x61#8, 0x10#8, 0x13#8] = .instr (.lfDivD 3 1 2) ∧
  decode [0x28#8, 0x61#8, 0x10#8, 0x6B#8] = .instr (.lvSll 3 1 2)

/-- What a word is: refused by name where a row matches and its reserved bits are not all zero (R104, R111), and
an IllegalInstruction exception where no row matches (R112, R517). The `-` bits of `lf.cust1.*` and `lv.cust1` to `lv.cust4` are
reserved as a configuration says, by default all of them; that it may say otherwise is the model's (log entry 29, DESIGN CHOICE:
R305, R306 and R402 to R405 call them free for the implementation), and so is the EEAR part (log entry 11). -/
def Obligations.ReservedAndUnassignedWords : Prop :=
  (defaultConfig.fcustReserved = 0x03E0070F#32 ∧ defaultConfig.vcustReserved = 0x03FFFF0F#32) ∧
  ∀ (s : State) (w : InsnWord),
    (∀ e ∈ ([("lf.cust1.d", 0xC80000E0#32, s.cfg.fcustReserved), ("lf.cust1.s", 0xC80000D0#32, s.cfg.fcustReserved),
        ("lv.cust1", 0x280000C0#32, s.cfg.vcustReserved), ("lv.cust2", 0x280000D0#32, s.cfg.vcustReserved),
        ("lv.cust3", 0x280000E0#32, s.cfg.vcustReserved), ("lv.cust4", 0x280000F0#32, s.cfg.vcustReserved)] :
        List (String × InsnWord × InsnWord)),
      w &&& 0xFC0000F0#32 = e.2.1 → w &&& e.2.2 ≠ 0#32 → runBytes (bytesOfWord w) s = .refused (.reservedBits e.1)) ∧
    (∀ r ∈ opcodeTable, w &&& r.mask = r.pattern → w &&& r.reserved ≠ 0#32 →
      runBytes (bytesOfWord w) s = .refused (.reservedBits r.mnemonic)) ∧
    ((∀ r ∈ opcodeTable, w &&& r.mask ≠ r.pattern) →
      RaisedIn s .illegalInstruction s.cfg.exceptions.illegalInstruction
        (if s.cfg.illegalEear then s.pc else s.eear) (runBytes (bytesOfWord w) s))

/-! ### The step -/

/-- Where the fetch delivers bytes that decode to `i`, and nothing happens at the boundary, the step is
`exec i` of the state after the input is taken in (R27, R115). -/
def Obligations.StepRunsDecodedInstruction : Prop :=
  ∀ (s : State) (bs : List Byte) (i : Instr),
    boundary (nextInput s) (takeInput s) = .nothing → fetch (takeInput s) = .bytes bs → decode bs = .instr i →
      step s = exec i (takeInput s)

/-- The word a fetch delivers, and what stops a fetch, in order: alignment, translation, bus (R76, R82, R83). The exceptions a
fetch raises have the pc in EEAR (R500, R507 to R509, R517). Two clauses are the model's: that under `FETCH_STALE` (R90) the unit
that is stale is the byte, tested after the bus, and a word with a stale byte is refused (log entry 14, DEDUCED); and that with an
MMU supplied an address is its own translation while `SR[IME] = 0` (log entry 8, DESIGN CHOICE; R79 gives only the
parameter). -/
def Obligations.FetchChecksInOrder : Prop :=
  ∀ s : State,
    (s.pc.toNat % 4 ≠ 0 → fetch s = .exc (.alignment s.pc)) ∧
    (s.pc.toNat % 4 = 0 →
      (Machine.translate s .fetch s.pc = .miss → fetch s = .exc (.itlbMiss s.pc)) ∧
      (Machine.translate s .fetch s.pc = .denied → fetch s = .exc (.insnPageFault s.pc)) ∧
      (∀ pa, Machine.translate s .fetch s.pc = .to pa →
        (busOk s.cfg pa 4 .fetch = false → fetch s = .exc (.busError s.pc)) ∧
        (busOk s.cfg pa 4 .fetch = true →
          ((s.cfg.fetchStale = true ∧ ∃ j < 4, pa + j ∈ s.stale) → fetch s = .stale) ∧
          (¬ (s.cfg.fetchStale = true ∧ ∃ j < 4, pa + j ∈ s.stale) →
            fetch s = .bytes [readByte s.mem pa, readByte s.mem (pa + 1), readByte s.mem (pa + 2), readByte s.mem (pa + 3)])))) ∧
    (s.cfg.hasMmu = false ∨ s.srBit srIME = false → Machine.translate s .fetch s.pc = .to s.pc.toNat) ∧
    (∀ e ∈ ([(.alignment s.pc, s.cfg.exceptions.alignment), (.itlbMiss s.pc, s.cfg.exceptions.itlbMiss),
        (.insnPageFault s.pc, s.cfg.exceptions.insnPageFault), (.busError s.pc, s.cfg.exceptions.busError)] :
        List (Exc × ExcEntry)),
      fetch s = .exc e.1 → RaisedIn s e.1 e.2 s.pc (runInstruction s)) ∧
    (fetch s = .stale → runInstruction s = .refused .staleFetch)

/-- Before the fetch of every step (R512, R515): an asserted reset; else an external interrupt that is
pending and enabled, whatever the tick; else a tick that is; EPCR is what the exception table says, by default the
instruction not yet executed, or the jump whose delay slot it is (R508). That an interrupt follows the reading of R517 too is
the model's (log entry 31). Where nothing is asked, the step fetches at once (D23). -/
def Obligations.InterruptsAtBoundary : Prop :=
  (∀ (s : State) (i : Input) (rest : List Input), s.inputs = i :: rest → i.reset = false →
    (i.ext = true → s.srBit srIEE = true →
      RaisedIn (takeInput s) .externalInterrupt s.cfg.exceptions.externalInterrupt s.eear (step s)) ∧
    (i.tick = true → s.srBit srTEE = true → (i.ext = false ∨ s.srBit srIEE = false) →
      RaisedIn (takeInput s) .tickTimer s.cfg.exceptions.tickTimer s.eear (step s)) ∧
    ((i.ext = false ∨ s.srBit srIEE = false) → (i.tick = false ∨ s.srBit srTEE = false) →
      step s = runInstruction (takeInput s))) ∧
  ∀ s : State, Quiet s → step s = runInstruction (takeInput s)

/-- What another agent writes before a step is in memory, its last write to an address winning, no other
byte changes, and a reservation whose word it touches is gone (R88, R92). -/
def Obligations.OutsideWritesLand : Prop :=
  ∀ (s : State) (i : Input) (rest : List Input), s.inputs = i :: rest → Memory.wf s.mem = true →
    (∀ a, (∀ c ∈ i.writes, c.1 ≠ a) → readByte (takeInput s).mem a = readByte s.mem a) ∧
    (∀ a b before after, i.writes = before ++ (a, b) :: after → (∀ c ∈ after, c.1 ≠ a) →
      readByte (takeInput s).mem a = b) ∧
    (∀ r, s.resv = some r → (i.loseResv = true ∨ ∃ c ∈ i.writes, r ≤ c.1 ∧ c.1 < r + 4) → (takeInput s).resv = none) ∧
    (∀ r, s.resv = some r → i.loseResv = false → (∀ c ∈ i.writes, c.1 < r ∨ r + 4 ≤ c.1) → (takeInput s).resv = some r) ∧
    (s.resv = none → (takeInput s).resv = none) ∧ (takeInput s).regs = s.regs ∧ (takeInput s).sr = s.sr ∧
    (takeInput s).pc = s.pc ∧ (takeInput s).ds = s.ds

/-! ### Reset -/

/-- After reset: supervisor mode, interrupts masked, no range exceptions (R63). -/
def Obligations.ResetModeAndMask : Prop :=
  State.reset.srBit srSM = true ∧ State.reset.srBit srTEE = false ∧ State.reset.srBit srIEE = false ∧
    State.reset.srBit srOVE = false

/-- What else reset fixes (R560, R561): SR, the vector, no delay slot, no reservation, FPCSR, AECR, AESR,
EVBAR; under every configuration. And the exception table of the default configuration: the offsets of R500 and the
resume addresses of R508, the instruction itself but for the system call and, under `EPCR_FP = next`, the floating-point
exception. -/
def Obligations.ResetValues : Prop :=
  (∀ c : Config,
    (resetWith c).sr = (if c.resetEph then 0x0000C001#32 else 0x00008001#32) ∧
    (resetWith c).evbar.toNat = (if c.evbarp then c.evbarReset.toNat * 2 ^ 13 else 0) ∧
    (resetWith c).pc.toNat = vectorOf (resetWith c) c.exceptions.reset.offset.toNat ∧
    (resetWith c).ds = none ∧ (resetWith c).resv = none ∧ (resetWith c).fpcsr = 0#32 ∧
    (resetWith c).aecr = 0#32 ∧ (resetWith c).aesr = 0#32 ∧ (resetWith c).inputs = []) ∧
  (∀ e ∈ ([(.reset, 0x100), (.busError 0, 0x200), (.dataPageFault 0, 0x300), (.insnPageFault 0, 0x400), (.tickTimer, 0x500),
      (.alignment 0, 0x600), (.illegalInstruction, 0x700), (.externalInterrupt, 0x800), (.dtlbMiss 0, 0x900), (.itlbMiss 0, 0xA00),
      (.range, 0xB00), (.systemCall, 0xC00), (.floatingPoint, 0xD00), (.trap, 0xE00)] : List (Exc × Nat)),
    (excEntry defaultConfig e.1).offset.toNat = e.2 ∧
    ((excEntry defaultConfig e.1).resume = .next ↔ e.1 = .systemCall ∨ e.1 = .floatingPoint))

/-- A reset input in the middle of a run makes the same assignments, and leaves memory and the
configuration as they are. R512 puts the reset first; R560 does not model a reset in a run, and what it does is the model's
reading of R560's remark on a warm reset (log entry 12, DEDUCED). -/
def Obligations.ResetInputReassigns : Prop :=
  ∀ (s : State) (i : Input) (rest : List Input), s.inputs = i :: rest → i.reset = true →
    ∃ t, step s = .next t ∧ t.cfg = s.cfg ∧ t.inputs = rest ∧ t.mem = (takeInput s).mem ∧
      t.sr = (resetWith s.cfg).sr ∧ t.evbar = (resetWith s.cfg).evbar ∧ t.pc = (resetWith s.cfg).pc ∧
      t.ds = none ∧ t.resv = none ∧ t.fpcsr = 0#32 ∧ t.aecr = 0#32 ∧ t.aesr = 0#32

/-! ### Invariants over every step -/

/-- The state after reset satisfies the invariant. The values of the registers R62 leaves unspecified
are the model's (log entry 1); the invariant needs of them only that they fit `XLEN` bits. -/
def Obligations.ResetMeetsInvariant : Prop := Inv State.reset

/-- Every step from a state that satisfies the invariant leads to one that does, under the same
configuration (R6). Four clauses of the invariant rest on choices of the model: `l.rfe` leaves no refused bit in SR, since it
refuses an ESR with one (log entry 13, DEDUCED); FPCSR stays below 2^12 (log entry 16, DESIGN CHOICE; R56 names bits 11:0 and no
others); AECR and AESR hold no bit of an absent unit (log entry 22, DEDUCED); a register of XLEN bits, held in 64, has its upper half
zero at XLEN = 32 (log entry 28, DESIGN CHOICE). The custom instructions are among the steps, whatever CustomSem is (log entry 19). -/
def Obligations.StepKeepsInvariant : Prop :=
  ∀ s t : State, Inv s → step s = .next t → Inv t ∧ t.cfg = s.cfg

/-- An instruction executed in user mode leaves EVBAR, AECR, the configuration and every SR bit but F, CY
and OV alone unless it takes an exception; and it reaches supervisor mode only through an exception:
then SR is saved in ESR with `SM = 0`, execution goes on at one of the vectors, and EVBAR and AECR are
still as they were (R507, R518, R521, R522). For two kinds of instruction this is the model's and no rule's. For the custom
instructions it rests on log entry 19 (DESIGN CHOICE): R114 and R272 leave their flags and exceptions to `CustomSem`, while a
`CustomAction` cannot write the control bits of SR, writes special registers in user mode as `USER_SPR_POLICY` says (R288), and raises
only the exceptions it lists. For `l.rfe` under `ignore` it rests on log entry 30 (DESIGN CHOICE), by which it only advances. -/
def Obligations.UserModeIsConfined : Prop :=
  ∀ (i : Instr) (s t : State), s.supervisor = false → exec i s = .next t →
    t.evbar = s.evbar ∧ t.aecr = s.aecr ∧ t.cfg = s.cfg ∧ t.inputs = s.inputs ∧
    (t.supervisor = false →
      (∀ k, k ≠ srF → k ≠ srCY → k ≠ srOV → t.srBit k = s.srBit k) ∧
      t.epcr = s.epcr ∧ t.esr = s.esr ∧ t.eear = s.eear ∧ t.aesr = s.aesr) ∧
    (t.supervisor = true →
      t.esr.getLsbD srSM = false ∧ t.resv = none ∧ t.ds = none ∧
      ∃ e ∈ [s.cfg.exceptions.busError, s.cfg.exceptions.dataPageFault, s.cfg.exceptions.alignment,
          s.cfg.exceptions.illegalInstruction, s.cfg.exceptions.dtlbMiss, s.cfg.exceptions.range, s.cfg.exceptions.systemCall,
          s.cfg.exceptions.floatingPoint, s.cfg.exceptions.trap], t.pc.toNat = vectorOf s e.offset.toNat)

/-! ### Integer arithmetic -/

/-- `l.add`, `l.addc`, `l.addi`, `l.addic`: one exact sum gives the result, the carry and the overflow; the
events CYADDE and OVADDE raise the range exception after both are written (R131, R134, R136 to R139). -/
def Obligations.AdditionResult : Prop :=
  ∀ (s : State) (rD rA rB : RegNum) (imm : BitVec 16),
    ∀ e ∈ ([(.lAdd rD rA rB, s.sval rB, 0), (.lAddc rD rA rB, s.sval rB, s.carry), (.lAddi rD rA imm, imm.toInt, 0),
        (.lAddic rD rA imm, imm.toInt, s.carry)] : List (Instr × Int × Nat)),
      let u : Nat := s.uval rA + wrap s.width e.2.1 + e.2.2
      let i : Int := s.sval rA + e.2.1 + e.2.2
      ArithOutcome e.1 s [.reg rD, .sr srCY, .sr srOV] [(0, 2 ^ s.width ≤ u), (1, OutOfRange s.width i)]
        fun t => t.uval rD = u % 2 ^ s.width ∧ (t.flagCY = true ↔ 2 ^ s.width ≤ u) ∧
          (t.flagOV = true ↔ OutOfRange s.width i)

/-- `l.sub`: the difference, the borrow in CY, the overflow in OV, and their events (R132, R134, R167). -/
def Obligations.SubtractionResult : Prop :=
  ∀ (s : State) (rD rA rB : RegNum),
    ArithOutcome (.lSub rD rA rB) s [.reg rD, .sr srCY, .sr srOV]
      [(0, s.uval rA < s.uval rB), (1, OutOfRange s.width (s.sval rA - s.sval rB))]
      fun t => t.uval rD = wrap s.width (s.sval rA - s.sval rB) ∧ (t.flagCY = true ↔ s.uval rA < s.uval rB) ∧
        (t.flagOV = true ↔ OutOfRange s.width (s.sval rA - s.sval rB))

/-- `l.mul`, `l.muli`, `l.mulu`: the truncated product; OV or CY tells whether it fits, the other flag is
unchanged; events OVMULE and CYMULE (R133, R134, R154 to R156). -/
def Obligations.MultiplicationResult : Prop :=
  ∀ (s : State) (rD rA rB : RegNum) (imm : BitVec 16), s.cfg.hasMul = true →
    (∀ e ∈ ([(.lMul rD rA rB, s.sval rB), (.lMuli rD rA imm, imm.toInt)] : List (Instr × Int)),
      ArithOutcome e.1 s [.reg rD, .sr srOV] [(3, OutOfRange s.width (s.sval rA * e.2))]
        fun t => t.uval rD = wrap s.width (s.sval rA * e.2) ∧
          (t.flagOV = true ↔ OutOfRange s.width (s.sval rA * e.2))) ∧
    ArithOutcome (.lMulu rD rA rB) s [.reg rD, .sr srCY] [(2, 2 ^ s.width ≤ s.uval rA * s.uval rB)]
      fun t => t.uval rD = s.uval rA * s.uval rB % 2 ^ s.width ∧
        (t.flagCY = true ↔ 2 ^ s.width ≤ s.uval rA * s.uval rB)

/-- `l.div` and `l.divu` by a divisor that is not zero: the quotient rounded toward zero, the flag cleared,
nothing raised; where the signed quotient does not fit, the register is not constrained (R143, R144). -/
def Obligations.DivisionResult : Prop :=
  ∀ (s : State) (rD rA rB : RegNum), s.cfg.hasDiv = true → s.uval rB ≠ 0 →
    (¬ OutOfRange s.width (Int.tdiv (s.sval rA) (s.sval rB)) →
      Completes (.lDiv rD rA rB) s [.reg rD, .sr srOV] fun t =>
        t.uval rD = wrap s.width (Int.tdiv (s.sval rA) (s.sval rB)) ∧ t.flagOV = false) ∧
    (OutOfRange s.width (Int.tdiv (s.sval rA) (s.sval rB)) →
      Completes (.lDiv rD rA rB) s [.reg rD, .sr srOV, .draws] fun t => t.flagOV = false) ∧
    Completes (.lDivu rD rA rB) s [.reg rD, .sr srCY] fun t =>
      t.uval rD = s.uval rA / s.uval rB ∧ t.flagCY = false

/-- `l.div` and `l.divu` by zero: the flag is set, the event DBZE is reported, the register is not
constrained, and nothing else changes (R143, R144). -/
def Obligations.DivisionByZero : Prop :=
  ∀ (s : State) (rD rA rB : RegNum), s.cfg.hasDiv = true → s.uval rB = 0 →
    ArithOutcome (.lDiv rD rA rB) s [.reg rD, .sr srOV, .draws] [(4, True)] (fun t => t.flagOV = true) ∧
    ArithOutcome (.lDivu rD rA rB) s [.reg rD, .sr srCY, .draws] [(4, True)] (fun t => t.flagCY = true)

/-- The logic instructions, `l.movhi` and `l.cmov`: one register is written, no flag; the conditional move takes `x[rA]` where
F is set, else `x[rB]` (R140 to R142, R153, R157, R158, R168, R169). -/
def Obligations.LogicAndMoveResult : Prop :=
  ∀ (s : State) (rD rA rB : RegNum) (imm : BitVec 16),
    (∀ e ∈ ([(.lAnd rD rA rB, s.uval rA &&& s.uval rB), (.lAndi rD rA imm, s.uval rA &&& imm.toNat),
        (.lOr rD rA rB, s.uval rA ||| s.uval rB), (.lOri rD rA imm, s.uval rA ||| imm.toNat),
        (.lXor rD rA rB, s.uval rA ^^^ s.uval rB), (.lXori rD rA imm, s.uval rA ^^^ wrap s.width imm.toInt),
        (.lMovhi rD imm, imm.toNat * 2 ^ 16)] : List (Instr × Nat)),
      Completes e.1 s [.reg rD] fun t => t.uval rD = e.2) ∧
    (s.cfg.hasCmov = true →
      Completes (.lCmov rD rA rB) s [.reg rD] fun t =>
        (s.flagF = true → t.uval rD = s.uval rA) ∧ (s.flagF = false → t.uval rD = s.uval rB))

/-- Shifts and rotates: the amount is taken modulo `XLEN`; logical shifts insert zeros, arithmetic ones the sign,
rotates the bits that leave at the other end (R135, R159 to R166). -/
def Obligations.ShiftRotateResult : Prop :=
  ∀ (s : State) (rD rA rB : RegNum) (l : BitVec 6),
    (∀ e ∈ ([(.lSll rD rA rB, s.uval rB), (.lSlli rD rA l, l.toNat)] : List (Instr × Nat)),
      Completes e.1 s [.reg rD] fun t => t.uval rD = s.uval rA * 2 ^ (e.2 % s.width) % 2 ^ s.width) ∧
    (∀ e ∈ ([(.lSrl rD rA rB, s.uval rB), (.lSrli rD rA l, l.toNat)] : List (Instr × Nat)),
      Completes e.1 s [.reg rD] fun t => t.uval rD = s.uval rA / 2 ^ (e.2 % s.width)) ∧
    (∀ e ∈ ([(.lSra rD rA rB, s.uval rB), (.lSrai rD rA l, l.toNat)] : List (Instr × Nat)),
      Completes e.1 s [.reg rD] fun t => t.uval rD = wrap s.width (s.sval rA / 2 ^ (e.2 % s.width))) ∧
    (s.cfg.hasRor = true →
      ∀ e ∈ ([(.lRor rD rA rB, s.uval rB), (.lRori rD rA l, l.toNat)] : List (Instr × Nat)),
        Completes e.1 s [.reg rD] fun t =>
          t.uval rD = s.uval rA / 2 ^ (e.2 % s.width) +
            s.uval rA % 2 ^ (e.2 % s.width) * 2 ^ (s.width - e.2 % s.width))

/-- The extensions: the low byte, half word or word with its sign or with zeros (R145 to R150). -/
def Obligations.ExtensionResult : Prop :=
  ∀ (s : State) (rD rA : RegNum), s.cfg.hasExt = true →
    ∀ e ∈ ([(.lExtbs rD rA, signedLow s.width 8 (s.uval rA)), (.lExtbz rD rA, s.uval rA % 2 ^ 8),
        (.lExths rD rA, signedLow s.width 16 (s.uval rA)), (.lExthz rD rA, s.uval rA % 2 ^ 16),
        (.lExtws rD rA, signedLow s.width 32 (s.uval rA)), (.lExtwz rD rA, s.uval rA % 2 ^ 32)] : List (Instr × Nat)),
      Completes e.1 s [.reg rD] fun t => t.uval rD = e.2

/-- `l.ff1` and `l.fl1`: the 1-based position of the lowest and of the highest one, 0 where there is none (R151,
R152). -/
def Obligations.FindOneResult : Prop :=
  ∀ (s : State) (rD rA rB : RegNum), s.cfg.hasFf1 = true →
    (Completes (.lFf1 rD rA rB) s [.reg rD] fun t =>
      (s.uval rA = 0 → t.uval rD = 0) ∧
      ∀ k, (s.uval rA).testBit k = true → (∀ j < k, (s.uval rA).testBit j = false) → t.uval rD = k + 1) ∧
    (Completes (.lFl1 rD rA rB) s [.reg rD] fun t =>
      (s.uval rA = 0 → t.uval rD = 0) ∧
      ∀ k, (s.uval rA).testBit k = true → (∀ j, k < j → (s.uval rA).testBit j = false) → t.uval rD = k + 1)

/-! ### Compares and jumps -/

/-- The twenty compares: F tells whether the relation holds between `x[rA]` and `x[rB]` or the sign-extended
immediate, as signed or as unsigned integers; nothing else changes (R180 to R200). -/
def Obligations.CompareSetsFlag : Prop :=
  ∀ (s : State) (rA rB : RegNum) (imm : BitVec 16),
    (∀ e ∈ ([(.lSfeq rA rB, fun a b => a = b), (.lSfne rA rB, fun a b => a ≠ b), (.lSfges rA rB, fun a b => b ≤ a),
        (.lSfgts rA rB, fun a b => b < a), (.lSfles rA rB, fun a b => a ≤ b), (.lSflts rA rB, fun a b => a < b)] :
        List (Instr × (Int → Int → Prop))),
      Completes e.1 s [.sr srF] fun t => t.flagF = true ↔ e.2 (s.sval rA) (s.sval rB)) ∧
    (∀ e ∈ ([(.lSfgeu rA rB, fun a b => b ≤ a), (.lSfgtu rA rB, fun a b => b < a), (.lSfleu rA rB, fun a b => a ≤ b),
        (.lSfltu rA rB, fun a b => a < b)] : List (Instr × (Nat → Nat → Prop))),
      Completes e.1 s [.sr srF] fun t => t.flagF = true ↔ e.2 (s.uval rA) (s.uval rB)) ∧
    (∀ e ∈ ([(.lSfeqi rA imm, fun a b => a = b), (.lSfnei rA imm, fun a b => a ≠ b), (.lSfgesi rA imm, fun a b => b ≤ a),
        (.lSfgtsi rA imm, fun a b => b < a), (.lSflesi rA imm, fun a b => a ≤ b), (.lSfltsi rA imm, fun a b => a < b)] :
        List (Instr × (Int → Int → Prop))),
      Completes e.1 s [.sr srF] fun t => t.flagF = true ↔ e.2 (s.sval rA) imm.toInt) ∧
    (∀ e ∈ ([(.lSfgeui rA imm, fun a b => b ≤ a), (.lSfgtui rA imm, fun a b => b < a),
        (.lSfleui rA imm, fun a b => a ≤ b), (.lSfltui rA imm, fun a b => a < b)] : List (Instr × (Nat → Nat → Prop))),
      Completes e.1 s [.sr srF] fun t => t.flagF = true ↔ e.2 (s.uval rA) (wrap s.width imm.toInt))

/-- `l.bf`, `l.bnf` and `l.j`: taken, the jump goes to `pc + 4 N` after the delay slot, or at once under `ND`; not
taken, nothing happens (R201 to R204). -/
def Obligations.BranchTaken : Prop :=
  ∀ (s : State) (n : BitVec 26), s.ds = none →
    (∀ e ∈ ([(.lBf n, s.flagF), (.lBnf n, !s.flagF), (.lJ n, true)] : List (Instr × Bool)),
      (e.2 = true → Jumps e.1 s (wrap s.width (s.pc.toNat + n.toInt * 4)) [] fun _ => True) ∧
      (e.2 = false → Completes e.1 s [] fun _ => True))

/-- `l.jr`, `l.jal` and `l.jalr`: the target is `x[rB]`, or `pc + 4 N`; the links write `pc + 8`, or `pc + 4` under `ND`,
to r9 (R205 to R207). -/
def Obligations.LinkAndRegisterJumps : Prop :=
  ∀ (s : State) (n : BitVec 26) (rB : RegNum), s.ds = none →
    Jumps (.lJr rB) s (s.uval rB) [] (fun _ => True) ∧
    Jumps (.lJal n) s (wrap s.width (s.pc.toNat + n.toInt * 4)) [.reg linkReg]
      (fun t => t.uval linkReg = (s.pc.toNat + if s.cfg.nd then 4 else 8) % 2 ^ s.width) ∧
    (rB ≠ linkReg →
      Jumps (.lJalr rB) s (s.uval rB) [.reg linkReg]
        (fun t => t.uval linkReg = (s.pc.toNat + if s.cfg.nd then 4 else 8) % 2 ^ s.width))

/-- What the spec refuses: `l.jalr r9` (R214), the jumps and branches in a delay slot (R217), `l.sys` and `l.trap` in
one (R215), and `l.rfe` in one where it would execute (R217). That `l.rfe` in user mode follows `USER_SPR_POLICY` before the
delay slot is looked at is read from the order of R285 (log entry 23, DEDUCED), so it is not stated here. -/
def Obligations.RefusedJumps : Prop :=
  ∀ (s : State) (n : BitVec 26) (rB : RegNum) (k : BitVec 16),
    exec (.lJalr linkReg) s = .refused .jalrLinkRegister ∧
    (s.ds ≠ none →
      (∀ i ∈ ([.lBf n, .lBnf n, .lJ n, .lJal n, .lJr rB] : List Instr), exec i s = .refused .jumpInDelaySlot) ∧
      (rB ≠ linkReg → exec (.lJalr rB) s = .refused .jumpInDelaySlot) ∧
      (s.supervisor = true → exec .lRfe s = .refused .jumpInDelaySlot) ∧
      exec (.lSys k) s = .refused .sysInDelaySlot ∧ exec (.lTrap k) s = .refused .sysInDelaySlot)

/-- A taken jump and its delay slot, two steps without inputs, for each of the six jumps and branches: the instruction in the
slot runs at `J + 4` and, when it completes, execution is at the target, which the slot cannot change (R26, R201 to R207,
R213). -/
def Obligations.DelaySlotThenTarget : Prop :=
  ∀ (s t u : State) (rB : RegNum) (n : BitVec 26) (i : Instr) (w : List Part) (post : State → Prop),
    let relative := wrap s.width (s.pc.toNat + n.toInt * 4)
    ∀ e ∈ ([(.lJr rB, true, s.uval rB), (.lJalr rB, true, s.uval rB), (.lJ n, true, relative), (.lJal n, true, relative),
        (.lBf n, s.flagF, relative), (.lBnf n, !s.flagF, relative)] : List (Instr × Bool × Nat)),
      s.cfg.nd = false → s.ds = none → e.2.1 = true → exec e.1 s = .next t → Completes i t w post → exec i t = .next u →
        t.pc.toNat = (s.pc.toNat + 4) % 2 ^ s.width ∧ u.pc.toNat = e.2.2 ∧ u.ds = none

/-! ### Loads and stores -/

/-- The effective address of every load and store: the sum of `x[rA]` and the sign-extended offset, modulo
`2 ^ XLEN` (R71). -/
def Obligations.EffectiveAddress : Prop :=
  ∀ (s : State) (rA : RegNum) (imm : BitVec 16),
    (effectiveAddr s rA imm).toNat = wrap s.width (imm.toInt + s.uval rA)

/-- The checks of a load or store of `n` bytes, in order (R74, R75, R78 to R81, R83): alignment, translation, bus. The form of the
two parameters is the model's: `BusOK` is a list of regions with the widths each answers, asked byte by byte (log entry 7), and
translation is the identity unless the MMU is supplied and `SR[DME]` is set (log entry 8). -/
def Obligations.DataAccessChecks : Prop :=
  ∀ (s : State) (k : AccessKind) (n : Nat) (ea : BitVec 64), k = .load ∨ k = .store →
    (ea.toNat % n ≠ 0 → access s k n ea = .error (.alignment ea)) ∧
    (ea.toNat % n = 0 →
      (∀ pa, Machine.translate s k ea = .to pa →
        ((∀ j < n, ∃ r ∈ s.cfg.regions, r.base ≤ pa + j ∧ pa + j < r.base + r.size ∧ regionAdmits r k n = true) →
          access s k n ea = .ok pa) ∧
        (¬ (∀ j < n, ∃ r ∈ s.cfg.regions, r.base ≤ pa + j ∧ pa + j < r.base + r.size ∧ regionAdmits r k n = true) →
          access s k n ea = .error (.busError ea))) ∧
      (Machine.translate s k ea = .miss → access s k n ea = .error (.dtlbMiss ea)) ∧
      (Machine.translate s k ea = .denied → access s k n ea = .error (.dataPageFault ea))) ∧
    (s.cfg.hasMmu = false ∨ s.srBit srDME = false → Machine.translate s k ea = .to ea.toNat)

/-- The loads: the datum at the address, extended with its sign or with zeros (R74, R220 to R228). -/
def Obligations.LoadResult : Prop :=
  ∀ (s : State) (rD rA : RegNum) (imm : BitVec 16) (pa : Nat),
    (∀ e ∈ ([(.lLbz rD rA imm, 1, false), (.lLbs rD rA imm, 1, true), (.lLhz rD rA imm, 2, false),
        (.lLhs rD rA imm, 2, true), (.lLwz rD rA imm, 4, false), (.lLws rD rA imm, 4, true)] : List (Instr × Nat × Bool)),
      access s .load e.2.1 (effectiveAddr s rA imm) = .ok pa →
        Completes e.1 s [.reg rD] fun t =>
          t.uval rD = if e.2.2 then signedLow s.width (8 * e.2.1) (memNat s.mem pa e.2.1) else memNat s.mem pa e.2.1) ∧
    (s.cfg.xlen = .x64 → access s .load 8 (effectiveAddr s rA imm) = .ok pa →
      Completes (.lLd rD rA imm) s [.reg rD] fun t => t.uval rD = memNat s.mem pa 8)

/-- The stores: the low bytes of `x[rB]`, the most significant at the lowest address, at the address the checks
give; no other byte changes. A reservation on a word they touch is gone, any other stays (R75, R88, R220, R229 to
R232). Under `FETCH_STALE` the bytes stored, and no others, become stale for fetch (R90; that the unit is the byte is DEDUCED, log
entry 14); else nothing does. -/
def Obligations.StoreResult : Prop :=
  ∀ (s : State) (rA rB : RegNum) (imm : BitVec 16) (pa : Nat),
    ∀ e ∈ ([(.lSb rA rB imm, 1), (.lSh rA rB imm, 2), (.lSw rA rB imm, 4), (.lSd rA rB imm, 8)] : List (Instr × Nat)),
      (e.2 = 8 → s.cfg.xlen = .x64) → Memory.wf s.mem = true → access s .store e.2 (effectiveAddr s rA imm) = .ok pa →
        Completes e.1 s [.mem, .resv, .stale] fun t =>
          (∀ j < e.2, (readByte t.mem (pa + j)).toNat = s.uval rB / 256 ^ (e.2 - 1 - j) % 256) ∧
          (∀ a, a < pa ∨ pa + e.2 ≤ a → readByte t.mem a = readByte s.mem a) ∧
          (s.cfg.fetchStale = false → t.stale = s.stale) ∧
          (s.cfg.fetchStale = true → ∀ a, a ∈ t.stale ↔ a ∈ s.stale ∨ (pa ≤ a ∧ a < pa + e.2)) ∧
          (s.resv = none → t.resv = none) ∧
          (∀ r, s.resv = some r → (pa < r + 4 ∧ r < pa + e.2 → t.resv = none) ∧
            (r + 4 ≤ pa ∨ pa + e.2 ≤ r → t.resv = some r))

/-- `l.lwa`: the word, and a reservation on its physical address in place of any other (R86, R226). -/
def Obligations.LoadAtomicResult : Prop :=
  ∀ (s : State) (rD rA : RegNum) (imm : BitVec 16) (pa : Nat), s.cfg.hasLwa = true →
    access s .load 4 (effectiveAddr s rA imm) = .ok pa →
      Completes (.lLwa rD rA imm) s [.reg rD, .resv] fun t => t.uval rD = memNat s.mem pa 4 ∧ t.resv = some pa

/-- `l.swa`: the word is stored and F set where the reservation is on this word; otherwise nothing is stored and F
is cleared; the reservation is gone either way (R87, R233). Under `FETCH_STALE` the bytes stored, and no others, become stale for
fetch (R90; log entry 14, DEDUCED). -/
def Obligations.StoreAtomicResult : Prop :=
  ∀ (s : State) (rA rB : RegNum) (imm : BitVec 16) (pa : Nat), s.cfg.hasLwa = true → Memory.wf s.mem = true →
    access s .store 4 (effectiveAddr s rA imm) = .ok pa →
      (s.resv = some pa →
        Completes (.lSwa rA rB imm) s [.mem, .resv, .stale, .sr srF] fun t =>
          (∀ j < 4, (readByte t.mem (pa + j)).toNat = s.uval rB / 256 ^ (3 - j) % 256) ∧
          (∀ a, a < pa ∨ pa + 4 ≤ a → readByte t.mem a = readByte s.mem a) ∧
          (s.cfg.fetchStale = false → t.stale = s.stale) ∧
          (s.cfg.fetchStale = true → ∀ a, a ∈ t.stale ↔ a ∈ s.stale ∨ (pa ≤ a ∧ a < pa + 4)) ∧ t.flagF = true ∧ t.resv = none) ∧
      (s.resv ≠ some pa →
        Completes (.lSwa rA rB imm) s [.resv, .sr srF] fun t => t.flagF = false ∧ t.resv = none)

/-- A load or store whose checks fail raises the exception they name, with the effective address in EEAR, and
does nothing else (R220, R226, R233, R509, R510, R517). -/
def Obligations.LoadStoreTraps : Prop :=
  ∀ (s : State) (r rA rB : RegNum) (imm : BitVec 16) (ex : Exc) (row : ExcEntry),
    ∀ e ∈ ([(.lLbz r rA imm, .load, 1, true), (.lLbs r rA imm, .load, 1, true), (.lLhz r rA imm, .load, 2, true),
        (.lLhs r rA imm, .load, 2, true), (.lLwz r rA imm, .load, 4, true), (.lLws r rA imm, .load, 4, true),
        (.lLd r rA imm, .load, 8, s.cfg.xlen == .x64), (.lLwa r rA imm, .load, 4, s.cfg.hasLwa), (.lSb rA rB imm, .store, 1, true),
        (.lSh rA rB imm, .store, 2, true), (.lSw rA rB imm, .store, 4, true), (.lSd rA rB imm, .store, 8, s.cfg.xlen == .x64),
        (.lSwa rA rB imm, .store, 4, s.cfg.hasLwa)] : List (Instr × AccessKind × Nat × Bool)),
      e.2.2.2 = true → access s e.2.1 e.2.2.1 (effectiveAddr s rA imm) = .error ex →
      (ex, row) ∈ [(.busError (effectiveAddr s rA imm), s.cfg.exceptions.busError),
        (.dataPageFault (effectiveAddr s rA imm), s.cfg.exceptions.dataPageFault),
        (.alignment (effectiveAddr s rA imm), s.cfg.exceptions.alignment),
        (.dtlbMiss (effectiveAddr s rA imm), s.cfg.exceptions.dtlbMiss)] →
        RaisedIn s ex row (effectiveAddr s rA imm) (exec e.1 s)

/-- What a store wrote, a load of the same width at the same address reads, with the address formed anew in the
state after the store; the double word at `XLEN = 64` (R74, R75, R84). -/
def Obligations.StoreThenLoad : Prop :=
  ∀ (s t u : State) (rD rA rB : RegNum) (imm : BitVec 16) (pa : Nat),
    ∀ e ∈ ([(.lSb rA rB imm, .lLbz rD rA imm, 1), (.lSh rA rB imm, .lLhz rD rA imm, 2), (.lSw rA rB imm, .lLwz rD rA imm, 4),
        (.lSd rA rB imm, .lLd rD rA imm, 8)] : List (Instr × Instr × Nat)),
      (e.2.2 = 8 → s.cfg.xlen = .x64) → Memory.wf s.mem = true →
      access s .store e.2.2 (effectiveAddr s rA imm) = .ok pa → access s .load e.2.2 (effectiveAddr s rA imm) = .ok pa →
      exec e.1 s = .next t → exec e.2.1 t = .next u → u.uval rD = s.uval rB % 2 ^ (8 * e.2.2)

/-! ### Multiply-accumulate -/

/-- `l.mac`, `l.maci` and `l.msb`: the product, exact at `XLEN = 32` and its low 64 bits as a signed number at 64, is added
to or subtracted from the accumulator; OV and the event OVMACADDE tell whether that overflowed; CY stays (R250 to
R253, R256). -/
def Obligations.SignedAccumulateResult : Prop :=
  ∀ (s : State) (rA rB : RegNum) (imm : BitVec 16) (p : Int), s.cfg.hasMac = true → -(2 ^ 63) ≤ p → p < 2 ^ 63 →
    ∀ e ∈ ([(.lMac rA rB, s.sval rA * s.sval rB, s.accS + p), (.lMaci rA imm, s.sval rA * imm.toInt, s.accS + p),
        (.lMsb rA rB, s.sval rA * s.sval rB, s.accS - p)] : List (Instr × Int × Int)),
      (e.2.1 - p) % 2 ^ 64 = 0 →
        ArithOutcome e.1 s [.machi, .maclo, .sr srOV] [(6, OutOfRange 64 e.2.2)]
          fun t => t.accU = wrap 64 e.2.2 ∧ (t.flagOV = true ↔ OutOfRange 64 e.2.2)

/-- `l.macu` and `l.msbu`: the same with unsigned numbers; CY and the event CYMACADDE tell of a carry or a borrow; OV stays
(R250, R251, R255, R257). -/
def Obligations.UnsignedAccumulateResult : Prop :=
  ∀ (s : State) (rA rB : RegNum), s.cfg.hasMac = true →
    ArithOutcome (.lMacu rA rB) s [.machi, .maclo, .sr srCY]
      [(5, 2 ^ 64 ≤ s.accU + s.uval rA * s.uval rB % 2 ^ 64)]
      (fun t => t.accU = (s.accU + s.uval rA * s.uval rB % 2 ^ 64) % 2 ^ 64 ∧
        (t.flagCY = true ↔ 2 ^ 64 ≤ s.accU + s.uval rA * s.uval rB % 2 ^ 64)) ∧
    ArithOutcome (.lMsbu rA rB) s [.machi, .maclo, .sr srCY] [(5, s.accU < s.uval rA * s.uval rB % 2 ^ 64)]
      (fun t => t.accU = wrap 64 ((s.accU : Int) - s.uval rA * s.uval rB) ∧
        (t.flagCY = true ↔ s.accU < s.uval rA * s.uval rB % 2 ^ 64))

/-- `l.muld`, `l.muldu` and `l.macrc`: the product replaces the accumulator, with a flag and an event at `XLEN = 64` alone;
`l.macrc` reads the accumulator into a register and clears it (R254, R258, R259). -/
def Obligations.DoubleMultiplyResult : Prop :=
  ∀ (s : State) (rD rA rB : RegNum), s.cfg.hasMac = true →
    (s.cfg.xlen = .x32 →
      Completes (.lMuld rA rB) s [.machi, .maclo] (fun t => t.accU = wrap 64 (s.sval rA * s.sval rB)) ∧
      Completes (.lMuldu rA rB) s [.machi, .maclo] (fun t => t.accU = s.uval rA * s.uval rB)) ∧
    (s.cfg.xlen = .x64 →
      ArithOutcome (.lMuld rA rB) s [.machi, .maclo, .sr srOV] [(3, OutOfRange 64 (s.sval rA * s.sval rB))]
        (fun t => t.accU = wrap 64 (s.sval rA * s.sval rB) ∧
          (t.flagOV = true ↔ OutOfRange 64 (s.sval rA * s.sval rB))) ∧
      ArithOutcome (.lMuldu rA rB) s [.machi, .maclo, .sr srCY] [(2, 2 ^ 64 ≤ s.uval rA * s.uval rB)]
        (fun t => t.accU = s.uval rA * s.uval rB % 2 ^ 64 ∧ (t.flagCY = true ↔ 2 ^ 64 ≤ s.uval rA * s.uval rB))) ∧
    Completes (.lMacrc rD) s [.reg rD, .machi, .maclo] fun t => t.uval rD = s.accU % 2 ^ s.width ∧ t.accU = 0

/-! ### System instructions and special registers -/

/-- `l.nop`, `l.msync`, `l.psync` and `l.csync` only advance the pc, the last two also forgetting the addresses stale for
fetch (R271, R281, R283, R284). -/
def Obligations.SynchronisationResult : Prop :=
  ∀ (s : State) (k : BitVec 16),
    Completes (.lNop k) s [] (fun _ => True) ∧ Completes .lMsync s [] (fun _ => True) ∧
    Completes .lPsync s [.stale] (fun t => t.stale = []) ∧ Completes .lCsync s [.stale] (fun t => t.stale = [])

/-- `l.mfspr` in supervisor mode: the register at the address `x[rA] | K`, its low 32 bits, zero-extended; zero where the
configuration has none (R38, R39, R280). What NPC and PPC read is the model's (log entry 9, PRESUMED), as are the general
registers at 0x400 to 0x41F and the form of `SprImplemented` (log entry 15, DEDUCED). -/
def Obligations.MfsprResult : Prop :=
  ∀ (s : State) (rD rA : RegNum) (k : BitVec 16) (a : Nat), s.supervisor = true →
    a = (s.uval rA ||| k.toNat) % 2 ^ 16 →
    let present : List (Nat × Bool × Nat) :=
      [(0x0001, true, s.cfg.uprValue.toNat), (0x0009, s.cfg.uvrp, s.cfg.vr2Cpuid.toNat * 2 ^ 24 + s.cfg.vr2Ver.toNat),
       (0x000A, s.cfg.avrp, s.cfg.avrValue.toNat), (0x000B, s.cfg.evbarp, s.evbar.toNat),
       (0x000C, s.cfg.aecsrp, s.aecr.toNat), (0x000D, s.cfg.aecsrp, s.aesr.toNat), (0x0011, true, s.sr.toNat),
       (0x0014, s.cfg.hasFpx32 || (s.cfg.hasFpx64 && s.cfg.xlen == .x64), s.fpcsr.toNat),
       (0x0020, true, s.epcr.toNat % 2 ^ 32), (0x0030, true, s.eear.toNat % 2 ^ 32), (0x0040, true, s.esr.toNat),
       (0x2801, s.cfg.hasMac, s.maclo.toNat), (0x2802, s.cfg.hasMac, s.machi.toNat)]
    (∀ e ∈ present, e.1 = a → e.2.1 = true → sprListed s.cfg a true = true →
      Completes (.lMfspr rD rA k) s [.reg rD] fun t => t.uval rD = e.2.2) ∧
    (∀ j : Fin 8, a = 0x15 + j → s.cfg.isrp = true → sprListed s.cfg a true = true →
      Completes (.lMfspr rD rA k) s [.reg rD] fun t => t.uval rD = (s.cfg.isrValue.get j).toNat) ∧
    (a = 0x10 → sprListed s.cfg a false = true →
      Completes (.lMfspr rD rA k) s [.reg rD] fun t => t.uval rD = t.pc.toNat % 2 ^ 32) ∧
    (a = 0x12 → sprListed s.cfg a false = true →
      Completes (.lMfspr rD rA k) s [.reg rD] fun t => t.uval rD = s.ppc.toNat % 2 ^ 32) ∧
    (∀ r : RegNum, a = 0x400 + r.toNat → sprListed s.cfg a false = true →
      Completes (.lMfspr rD rA k) s [.reg rD] fun t => t.uval rD = s.uval r % 2 ^ 32) ∧
    (a = 0 → sprListed s.cfg a true = true → Completes (.lMfspr rD rA k) s [.reg rD] fun t =>
      t.uval rD % 64 = s.cfg.vrValue.toNat % 64 ∧ t.uval rD / 128 = s.cfg.vrValue.toNat / 128 ∧
        ((t.uval rD).testBit 6 = s.cfg.uvrp)) ∧
    (a = 2 → sprListed s.cfg a true = true → Completes (.lMfspr rD rA k) s [.reg rD] fun t =>
      t.uval rD = s.cfg.cpucfgrOther.toNat % 2 ^ 10 + s.cfg.nd.toNat * 2 ^ 10 + s.cfg.avrp.toNat * 2 ^ 11 +
        s.cfg.evbarp.toNat * 2 ^ 12 + s.cfg.isrp.toNat * 2 ^ 13 + s.cfg.aecsrp.toNat * 2 ^ 14) ∧
    ((∀ e ∈ present, e.1 = a → e.2.1 = false ∨ sprListed s.cfg a true = false) →
      (0x15 ≤ a → a < 0x1D → s.cfg.isrp = false ∨ sprListed s.cfg a true = false) → (a = 0 ∨ a = 2 → sprListed s.cfg a true = false) →
      (a = 0x10 ∨ a = 0x12 ∨ (0x400 ≤ a ∧ a < 0x420) → sprListed s.cfg a false = false) →
      Completes (.lMfspr rD rA k) s [.reg rD] fun t => t.uval rD = 0)

/-- `l.mtspr` in supervisor mode to every register it can write but SR: the low 32 bits of `x[rB]`, cut to the fields the
register has, and nothing else; to a read-only or absent register, nothing (R38, R44 to R46, R50 to R53, R56, R282). A write of
NPC, where it is implemented, is refused (R55). The model's are: which bits of AECR and AESR exist where a unit is absent, and that
ESR takes every bit (log entry 22, DEDUCED); that FPCSR takes bits 11:0 (log entry 16, DESIGN CHOICE); the write of a general
register through 0x400 to 0x41F and the form of `SprImplemented` (log entry 15, DEDUCED). -/
def Obligations.MtsprResult : Prop :=
  ∀ (s : State) (rA rB : RegNum) (k : BitVec 16) (a v : Nat), s.supervisor = true →
    a = (s.uval rA ||| k.toNat) % 2 ^ 16 → v = s.uval rB % 2 ^ 32 →
    (∀ e ∈ ([(0x000B, s.cfg.evbarp, .evbar, fun t => t.evbar.toNat, v / 2 ^ 13 * 2 ^ 13),
        (0x000C, s.cfg.aecsrp, .aecr, fun t => t.aecr.toNat, v &&& (aecrBits s.cfg).toNat),
        (0x000D, s.cfg.aecsrp, .aesr, fun t => t.aesr.toNat, v &&& (aecrBits s.cfg).toNat),
        (0x0014, hasFpu s.cfg, .fpcsr, fun t => t.fpcsr.toNat, v % 2 ^ 12), (0x0020, true, .epcr, fun t => t.epcr.toNat, v),
        (0x0030, true, .eear, fun t => t.eear.toNat, v), (0x0040, true, .esr, fun t => t.esr.toNat, v),
        (0x2801, s.cfg.hasMac, .maclo, fun t => t.maclo.toNat, v), (0x2802, s.cfg.hasMac, .machi, fun t => t.machi.toNat, v)] :
        List (Nat × Bool × Part × (State → Nat) × Nat)),
      e.1 = a →
        (e.2.1 = true → sprListed s.cfg a true = true →
          Completes (.lMtspr rA rB k) s [e.2.2.1] fun t => e.2.2.2.1 t = e.2.2.2.2) ∧
        (e.2.1 = false ∨ sprListed s.cfg a true = false → Completes (.lMtspr rA rB k) s [] fun _ => True)) ∧
    (a = 0x0010 → sprListed s.cfg a false = true → exec (.lMtspr rA rB k) s = .refused .npcWrite) ∧
    (∀ r : RegNum, a = 0x400 + r.toNat → sprListed s.cfg a false = true →
      Completes (.lMtspr rA rB k) s [.reg r] fun t => t.uval r = v) ∧
    (a ∉ [0x000B, 0x000C, 0x000D, 0x0011, 0x0014, 0x0020, 0x0030, 0x0040, 0x2801, 0x2802] →
      (a = 0x0010 ∨ (0x400 ≤ a ∧ a < 0x420) → sprListed s.cfg a false = false) →
      Completes (.lMtspr rA rB k) s [] fun _ => True)

/-- `l.mtspr` to SR: F, CY, OV, the enables, SM and EPH as offered, the reserved bits zero, FO one (R36, R282); a value with
LEE, DCE or ICE set, or DME or IME where there is no MMU, is refused (R77, R79, R91). Nothing is written where
`SprImplemented` leaves SR out (R38). -/
def Obligations.MtsprToSr : Prop :=
  ∀ (s : State) (rA rB : RegNum) (k : BitVec 16), s.supervisor = true → (s.uval rA ||| k.toNat) % 2 ^ 16 = 0x11 →
    (sprListed s.cfg 0x11 true = false → Completes (.lMtspr rA rB k) s [] fun _ => True) ∧
    (sprListed s.cfg 0x11 true = true →
    ((∃ j ∈ [srLEE, srDCE, srICE] ++ (if s.cfg.hasMmu then [] else [srDME, srIME]), (s.uval rB).testBit j = true) →
      exec (.lMtspr rA rB k) s = .refused .unsupportedSrBit) ∧
    (¬ (∃ j ∈ [srLEE, srDCE, srICE] ++ (if s.cfg.hasMmu then [] else [srDME, srIME]), (s.uval rB).testBit j = true) →
      Completes (.lMtspr rA rB k) s ((List.range 32).map .sr) fun t =>
        t.srBit srFO = true ∧ (∀ j, 17 ≤ j → j ≤ 27 → t.srBit j = false) ∧
        ∀ j < 32, j ≠ srFO → (j < 17 ∨ 27 < j) → t.srBit j = (s.uval rB).testBit j))

/-- `l.rfe` in supervisor mode: the pc from EPCR, SR from ESR with its fixed bits, the reservation gone, no delay slot (R36,
R285, R513); an ESR with a bit the spec refuses in SR is refused (R77, R79, R91; that `l.rfe` refuses it too is DEDUCED, log
entry 13). -/
def Obligations.ReturnFromException : Prop :=
  ∀ s : State, s.supervisor = true → s.ds = none →
    ((∃ j ∈ [srLEE, srDCE, srICE] ++ (if s.cfg.hasMmu then [] else [srDME, srIME]), s.esr.getLsbD j = true) →
      exec .lRfe s = .refused .unsupportedSrBit) ∧
    (¬ (∃ j ∈ [srLEE, srDCE, srICE] ++ (if s.cfg.hasMmu then [] else [srDME, srIME]), s.esr.getLsbD j = true) →
      ∃ t, exec .lRfe s = .next t ∧ Frame (.resv :: (List.range 32).map .sr) s t ∧ t.pc = s.epcr ∧ t.ppc = s.pc ∧
        t.ds = none ∧ t.resv = none ∧ t.srBit srFO = true ∧ (∀ j, 17 ≤ j → j ≤ 27 → t.srBit j = false) ∧
        ∀ j < 32, j ≠ srFO → (j < 17 ∨ 27 < j) → t.srBit j = s.esr.getLsbD j)

/-- `l.sys` and `l.trap` outside a delay slot raise their exceptions and do nothing else: taken, execution goes on at the
vector, and EPCR is what the exception table says, by default the next instruction for the one and the instruction itself for the
other (R286, R287, R506 to R508, R517). -/
def Obligations.SystemCallAndTrap : Prop :=
  ∀ (s : State) (k : BitVec 16), s.ds = none →
    RaisedIn s .systemCall s.cfg.exceptions.systemCall s.eear (exec (.lSys k) s) ∧
    RaisedIn s .trap s.cfg.exceptions.trap s.eear (exec (.lTrap k) s)

/-- In user mode the SPR instructions and `l.rfe` do what `USER_SPR_POLICY` says (R285, R288, R521). That `l.rfe` under `ignore` only
advances is the model's (log entry 30, DESIGN CHOICE): R288 gives `ignore` for a read and a write of an SPR alone. That `l.rfe`
follows the policy in a delay slot as well, where R217 refuses it, is read from the order of R285, which applies the policy before it
looks at the slot (log entry 23, DEDUCED). -/
def Obligations.UserModeSprAccess : Prop :=
  ∀ (s : State) (rD rA rB : RegNum) (k : BitVec 16), s.supervisor = false →
    (s.cfg.userSprPolicy = .illegal →
      ∀ i ∈ ([.lMfspr rD rA k, .lMtspr rA rB k, .lRfe] : List Instr), RaisesIllegal i s) ∧
    (s.cfg.userSprPolicy = .refuse →
      ∀ i ∈ ([.lMfspr rD rA k, .lMtspr rA rB k, .lRfe] : List Instr), exec i s = .refused .userSprAccess) ∧
    (s.cfg.userSprPolicy = .ignore →
      Completes (.lMfspr rD rA k) s [.reg rD] (fun t => t.uval rD = 0) ∧
      Completes (.lMtspr rA rB k) s [] (fun _ => True) ∧ Completes .lRfe s [] (fun _ => True))

/-- The custom instructions: IllegalInstruction where the unit or the width is absent (R113, R301, R350), else what `CustomSem`
makes of the word, refused where it is not defined (R114, R272 to R279, R305, R306, R402 to R405). The form of `CustomSem`, a list
of cases each with one of five effects, one of them an unknown function of the word and the state, is the model's (log entry 19,
DESIGN CHOICE), with what such a function may ask for: the last clauses say what a few of its values do. The model's, too, are the two parameters for the bits
that R104 reserves and R305, R306 and R402 to R405 call free for the implementation (log entry 29, DESIGN CHOICE). -/
def Obligations.CustomInstructions : Prop :=
  ∀ (s : State) (rD rA rB : RegNum) (c : BitVec 26) (l : BitVec 6) (k : BitVec 5) (m : BitVec 12) (d : BitVec 4) (v : BitVec 18),
    let double := s.cfg.hasFpx64 && s.cfg.xlen == .x64
    let vector := s.cfg.hasVdx64 && s.cfg.xlen == .x64
    ∀ e ∈ ([("l.cust1", .lCust1 c, 0, true), ("l.cust2", .lCust2 c, 0, true), ("l.cust3", .lCust3 c, 0, true),
        ("l.cust4", .lCust4 c, 0, true), ("l.cust5", .lCust5 rD rA rB l k, 0, true), ("l.cust6", .lCust6 c, 0, true),
        ("l.cust7", .lCust7 c, 0, true), ("l.cust8", .lCust8 c, 0, true),
        ("lf.cust1.d", .lfCust1D rA rB m, s.cfg.fcustReserved, double),
        ("lf.cust1.s", .lfCust1S rA rB m, s.cfg.fcustReserved, s.cfg.hasFpx32),
        ("lv.cust1", .lvCust1 v d, s.cfg.vcustReserved, vector), ("lv.cust2", .lvCust2 v d, s.cfg.vcustReserved, vector),
        ("lv.cust3", .lvCust3 v d, s.cfg.vcustReserved, vector), ("lv.cust4", .lvCust4 v d, s.cfg.vcustReserved, vector)] :
        List (String × Instr × InsnWord × Bool)),
      let w := encode e.2.1
      (w &&& e.2.2.1 ≠ 0#32 → exec e.2.1 s = .refused (.reservedBits e.1)) ∧
      (w &&& e.2.2.1 = 0#32 → e.2.2.2 = false → RaisesIllegal e.2.1 s) ∧
      (w &&& e.2.2.1 = 0#32 → e.2.2.2 = true →
        ((∀ r ∈ s.cfg.customSem, w &&& r.mask ≠ r.pattern) → exec e.2.1 s = .refused .customUndefined) ∧
        ∀ before r after, s.cfg.customSem = before ++ r :: after → (∀ q ∈ before, w &&& q.mask ≠ q.pattern) →
          w &&& r.mask = r.pattern →
          (r.effect = .refuse → exec e.2.1 s = .refused .customUndefined) ∧
          (r.effect = .illegal → RaisesIllegal e.2.1 s) ∧
          (r.effect = .nop → Completes e.2.1 s [] fun _ => True) ∧
          (r.effect = .compute → Completes e.2.1 s [.reg (fieldD w)] fun t =>
            t.uval (fieldD w) =
              (Config.customResult w (BitVec.ofNat 64 (s.uval (fieldA w))) (BitVec.ofNat 64 (s.uval (fieldB w)))).toNat % 2 ^ s.width) ∧
          (∀ n, r.effect = .function n → exec e.2.1 s = customAct (Config.customFunction n w s) s)) ∧
      customAct .refuse s = .refused .customUndefined ∧
      (∃ t, customAct (.run [] .advance) s = .next t ∧ Advanced s t ∧ Frame [] s t) ∧
      (∀ (r q : RegNum) (x y : BitVec 64), r ≠ q → ∃ t, customAct (.run [.reg r x, .reg q y, .flagF true] .advance) s = .next t ∧
        Advanced s t ∧ Frame [.reg r, .reg q, .sr srF] s t ∧ t.uval r = x.toNat % 2 ^ s.width ∧ t.uval q = y.toNat % 2 ^ s.width ∧
        t.flagF = true) ∧
      (∀ (ea x : BitVec 64) (z : Fin 4) (pa : Nat), Memory.wf s.mem = true → access s .store (2 ^ z.val) (s.trunc ea) = .ok pa →
        ∃ t, customAct (.run [.store ea z x] .advance) s = .next t ∧ Advanced s t ∧ Frame [.mem, .resv, .stale] s t ∧
          (∀ j < 2 ^ z.val, (readByte t.mem (pa + j)).toNat = x.toNat / 256 ^ (2 ^ z.val - 1 - j) % 256) ∧
          ∀ a, a < pa ∨ pa + 2 ^ z.val ≤ a → readByte t.mem a = readByte s.mem a) ∧
      RaisedIn s .trap s.cfg.exceptions.trap s.eear (customAct (.run [] (.raise .trap)) s)

/-- An instruction whose unit, or whose width, the configuration does not have raises IllegalInstruction and does nothing
else (R113, R301, R350). The custom instructions are in CustomInstructions. -/
def Obligations.AbsentUnitIsIllegal : Prop :=
  ∀ (s : State) (rD rA rB : RegNum) (imm : BitVec 16) (l : BitVec 6),
    (s.cfg.hasMul = false → ∀ i ∈ ([.lMul rD rA rB, .lMuli rD rA imm, .lMulu rD rA rB] : List Instr), RaisesIllegal i s) ∧
    (s.cfg.hasDiv = false → ∀ i ∈ ([.lDiv rD rA rB, .lDivu rD rA rB] : List Instr), RaisesIllegal i s) ∧
    (s.cfg.hasMac = false →
      ∀ i ∈ ([.lMac rA rB, .lMaci rA imm, .lMacrc rD, .lMacu rA rB, .lMsb rA rB, .lMsbu rA rB, .lMuld rA rB, .lMuldu rA rB] :
        List Instr), RaisesIllegal i s) ∧
    (s.cfg.hasExt = false →
      ∀ i ∈ ([.lExtbs rD rA, .lExtbz rD rA, .lExths rD rA, .lExthz rD rA, .lExtws rD rA, .lExtwz rD rA] : List Instr),
        RaisesIllegal i s) ∧
    (s.cfg.hasCmov = false → RaisesIllegal (.lCmov rD rA rB) s) ∧
    (s.cfg.hasFf1 = false → RaisesIllegal (.lFf1 rD rA rB) s ∧ RaisesIllegal (.lFl1 rD rA rB) s) ∧
    (s.cfg.hasRor = false → RaisesIllegal (.lRor rD rA rB) s ∧ RaisesIllegal (.lRori rD rA l) s) ∧
    (s.cfg.hasLwa = false → RaisesIllegal (.lLwa rD rA imm) s ∧ RaisesIllegal (.lSwa rA rB imm) s) ∧
    (s.cfg.xlen = .x32 → RaisesIllegal (.lLd rD rA imm) s ∧ RaisesIllegal (.lSd rA rB imm) s) ∧
    (s.cfg.hasFpx32 = false → ∀ i ∈ singleInstrs rD rA rB, RaisesIllegal i s) ∧
    (s.cfg.hasFpx64 = false ∨ s.cfg.xlen = .x32 → ∀ i ∈ doubleInstrs rD rA rB, RaisesIllegal i s) ∧
    (s.cfg.hasVdx64 = false ∨ s.cfg.xlen = .x32 → ∀ i ∈ vectorInstrs rD rA rB, RaisesIllegal i s)

/-! ### Floating point -/

/-- What follows a floating-point result (R301, R302): the register, zero-extended, and the flags, ORed into FPCSR[11:3]; the
exception only where FPEE is set and a flag is raised, after both are written. Under the default record `FP` (R300) the result and
its flags are those of the IEEE operation, with, under `FP_CLASS_FLAGS`, the flag of the result's class: SNF, QNF, ZF or INF (R56).
Under another record they are what its member delivers, without class flags where `FP_CLASS_FLAGS` is false; that such records have
numbers is the model's form (log entry 32, DESIGN CHOICE). -/
def Obligations.FloatArithmeticDataFlow : Prop :=
  ∀ (s : State) (rD rA rB : RegNum),
    ∀ e ∈ ([(.lfAddS rD rA rB, fpSingle, .add, fpAdd), (.lfSubS rD rA rB, fpSingle, .sub, fpSub), (.lfMulS rD rA rB, fpSingle, .mul, fpMul),
        (.lfDivS rD rA rB, fpSingle, .div, fpDiv), (.lfRemS rD rA rB, fpSingle, .rem, fpRem), (.lfAddD rD rA rB, fpDouble, .add, fpAdd),
        (.lfSubD rD rA rB, fpDouble, .sub, fpSub), (.lfMulD rD rA rB, fpDouble, .mul, fpMul), (.lfDivD rD rA rB, fpDouble, .div, fpDiv),
        (.lfRemD rD rA rB, fpDouble, .rem, fpRem)] :
        List (Instr × FpFormat × FpOp × (FpFormat → Config → Rounding → BitVec 64 → Nat → Nat → FpResult))),
      (e.2.1 = fpSingle → s.cfg.hasFpx32 = true) → (e.2.1 = fpDouble → s.cfg.hasFpx64 = true ∧ s.cfg.xlen = .x64) →
      let f := e.2.1
      let a := s.uval rA % 2 ^ f.width
      let b := s.uval rB % 2 ^ f.width
      (s.cfg.fp = .ieee →
        let r := e.2.2.2 f s.cfg (roundingOf s.fpcsr) s.free a b
        ∃ fl : BitVec 9, FpOutcome e.1 s rD [.reg rD, .fpcsr, .draws] r.bits fl ∧
          (s.cfg.fpClassFlags = false → fl = r.flags) ∧
          (s.cfg.fpClassFlags = true → ∀ k, fl.getLsbD k = true ↔ r.flags.getLsbD k = true ∨ FpClass f r.bits k)) ∧
      (∀ n, s.cfg.fp = .other n →
        let r := Config.fpOperation n e.2.2.1 f.width s.fpcsr (BitVec.ofNat 64 a) (BitVec.ofNat 64 b)
        FpOutcome e.1 s rD [.reg rD, .fpcsr] (r.1.toNat % 2 ^ f.width) (if s.cfg.fpClassFlags then r.2 else r.2 &&& 0x163#9))

/-- The conversions (R300, R302, R309 to R312). Under the default record `FP`: an integer of the operand's width becomes the nearest
floating-point number in the rounding mode, zero becoming `+0`, with IXF where it is inexact and, under `FP_CLASS_FLAGS`, ZF where it is
zero; a number becomes the integer it rounds to, with IXF where that is inexact; a NaN, an infinity or a value out of range gives IVF
and a register that is not constrained. Under another record: what its member delivers (log entry 32, DESIGN CHOICE). Then the flags
are ORed into FPCSR, whose other bits stay, and the exception is raised where FPEE is set and a flag is. -/
def Obligations.FloatConversions : Prop :=
  ∀ (s : State) (rD rA : RegNum),
    ∀ e ∈ ([(.lfItofS rD rA, .lfFtoiS rD rA, fpSingle), (.lfItofD rD rA, .lfFtoiD rD rA, fpDouble)] : List (Instr × Instr × FpFormat)),
      (e.2.2 = fpSingle → s.cfg.hasFpx32 = true) → (e.2.2 = fpDouble → s.cfg.hasFpx64 = true ∧ s.cfg.xlen = .x64) →
      let f := e.2.2
      let x := s.uval rA % 2 ^ f.width
      let i : Int := if x < 2 ^ (f.width - 1) then x else (x : Int) - 2 ^ f.width
      (s.cfg.fp = .ieee →
        (∃ v, (i = 0 → v = 0) ∧ (i ≠ 0 → RoundsTo f (roundingOf s.fpcsr) (i * 2 ^ f.unit) 1 v) ∧
          FpOutcome e.1 s rD [.reg rD, .fpcsr] v
            (flagIf (decide (fpVal f v ≠ i * 2 ^ f.unit)) flIXF ||| flagIf (s.cfg.fpClassFlags && decide (i = 0)) flZF)) ∧
        (∃ v fl, (fpIsNan f x = true ∨ fpIsInf f x = true → fl = flIVF) ∧
          (∀ j : Int, fpExp f x < f.emax → RoundsToInt (roundingOf s.fpcsr) (fpVal f x) (2 ^ f.unit) j →
            (OutOfRange f.width j → fl = flIVF) ∧
            (¬ OutOfRange f.width j → v = wrap f.width j ∧ fl = flagIf (decide (fpVal f x ≠ j * 2 ^ f.unit)) flIXF)) ∧
          FpOutcome e.2.1 s rD [.reg rD, .fpcsr, .draws] v fl)) ∧
      (∀ n, s.cfg.fp = .other n → ∀ p ∈ ([(e.1, .itof), (e.2.1, .ftoi)] : List (Instr × FpOp)),
        let r := Config.fpOperation n p.2 f.width s.fpcsr (BitVec.ofNat 64 x) 0#64
        FpOutcome p.1 s rD [.reg rD, .fpcsr] (r.1.toNat % 2 ^ f.width) (if s.cfg.fpClassFlags then r.2 else r.2 &&& 0x163#9))

/-- The compares: under the default record `FP` the IEEE relation, false on a NaN but for `ne`, zeros of either sign equal; under
another record the outcome its `FP.cmp` gives (log entry 32, DESIGN CHOICE); only F is written (R300, R302, R319 to R330). Under the
parameter `FP_CMP_FLAGS` (R5) a NaN, or an outcome `unordered`, also sets IVF; that a quiet NaN does so too, and in every compare, is
the model's reading (log entry 27, DEDUCED). -/
def Obligations.FloatCompareResult : Prop :=
  ∀ (s : State) (rA rB : RegNum),
    ∀ e ∈ ([(.lfSfeqS rA rB, fpSingle, (fun a b => a = b), [.eq]), (.lfSfgeS rA rB, fpSingle, (fun a b => b ≤ a), [.gt, .eq]),
        (.lfSfgtS rA rB, fpSingle, (fun a b => b < a), [.gt]), (.lfSfleS rA rB, fpSingle, (fun a b => a ≤ b), [.lt, .eq]),
        (.lfSfltS rA rB, fpSingle, (fun a b => a < b), [.lt]), (.lfSfneS rA rB, fpSingle, (fun a b => a ≠ b), [.lt, .gt, .unordered]),
        (.lfSfeqD rA rB, fpDouble, (fun a b => a = b), [.eq]), (.lfSfgeD rA rB, fpDouble, (fun a b => b ≤ a), [.gt, .eq]),
        (.lfSfgtD rA rB, fpDouble, (fun a b => b < a), [.gt]), (.lfSfleD rA rB, fpDouble, (fun a b => a ≤ b), [.lt, .eq]),
        (.lfSfltD rA rB, fpDouble, (fun a b => a < b), [.lt]), (.lfSfneD rA rB, fpDouble, (fun a b => a ≠ b), [.lt, .gt, .unordered])] :
        List (Instr × FpFormat × (Int → Int → Prop) × List FpOrder)),
      (e.2.1 = fpSingle → s.cfg.hasFpx32 = true) → (e.2.1 = fpDouble → s.cfg.hasFpx64 = true ∧ s.cfg.xlen = .x64) →
      let f := e.2.1
      let a := s.uval rA % 2 ^ f.width
      let b := s.uval rB % 2 ^ f.width
      let nan := fpIsNan f a || fpIsNan f b
      (s.cfg.fp = .ieee →
        Completes e.1 s [.sr srF, .fpcsr] fun t =>
          (nan = true → (t.flagF = true ↔ e.1 = .lfSfneS rA rB ∨ e.1 = .lfSfneD rA rB)) ∧
          (nan = false → (t.flagF = true ↔ e.2.2.1 (fpRank f a) (fpRank f b))) ∧
          (s.cfg.fpCmpFlags = false ∨ nan = false → t.fpcsr = s.fpcsr) ∧
          (s.cfg.fpCmpFlags = true → nan = true → t.fpcsr.toNat = (s.fpcsr.toNat ||| 0x200))) ∧
      (∀ n, s.cfg.fp = .other n →
        let o := Config.fpOrder n f.width (BitVec.ofNat 64 a) (BitVec.ofNat 64 b)
        Completes e.1 s [.sr srF, .fpcsr] fun t =>
          (t.flagF = true ↔ o ∈ e.2.2.2) ∧
          t.fpcsr.toNat = if s.cfg.fpCmpFlags = true ∧ o = .unordered then (s.fpcsr.toNat ||| 0x200) else s.fpcsr.toNat)

/-- The instructions whose accumulators the spec leaves undefined, under each value of `FP_MADD` and of `LV_VMAC`: refused, illegal
(R313, R314, R430, R437), or, the model's third value (log entry 20, DESIGN CHOICE), executed: `lf.madd.*` changes only FPMADDHI,
FPMADDLO and the flags, an unknown set of them being ORed into FPCSR[11:3], and then completes or, where FPEE is set and the set is
not empty, raises the floating-point exception (R302); `lv.madds.h` and `lv.msubs.h` change only `x[rD]` and the VMAC pair; the
values are not constrained. -/
def Obligations.UndefinedAccumulators : Prop :=
  ∀ (s : State) (rD rA rB : RegNum),
    (∀ e ∈ ([(.lfMaddS rD rA rB, s.cfg.hasFpx32), (.lfMaddD rD rA rB, s.cfg.hasFpx64 && s.cfg.xlen == .x64)] : List (Instr × Bool)),
      e.2 = true →
        (s.cfg.fpMadd = .illegal → RaisesIllegal e.1 s) ∧
        (s.cfg.fpMadd = .refuse → exec e.1 s = .refused .fpMaddUndefined) ∧
        (s.cfg.fpMadd = .free → ∃ fl, FpEnds e.1 s [.fpmadd, .fpcsr, .draws] fl fun _ => True)) ∧
    (s.cfg.hasVdx64 = true → s.cfg.xlen = .x64 →
      ∀ i ∈ ([.lvMaddsH rD rA rB, .lvMsubsH rD rA rB] : List Instr),
        (s.cfg.lvVmac = .illegal → RaisesIllegal i s) ∧
        (s.cfg.lvVmac = .refuse → exec i s = .refused .vmacUndefined) ∧
        (s.cfg.lvVmac = .free → Completes i s [.reg rD, .vmac, .draws] fun _ => True))

/-- The default record's operations on finite numbers are correctly rounded in every mode (R300, IEEE 754; log entry 18, PRESUMED):
where the exact sum, difference, product or quotient is not zero, it is delivered rounded, with IXF exactly where it is inexact,
UNF exactly where it is moreover tiny, before or after rounding as the parameter says (R56; log entry 17, DESIGN CHOICE), and no
other flag but those of the result's class, which FloatArithmeticDataFlow adds; or, when it overflows, as an infinity or the largest finite number with OVF and IXF alone. A remainder is exact and
raises no flag, its quotient being the nearest integer, ties to even, or, under `FP_REM_KIND = trunc`, the truncated one; a zero
remainder has the sign of the dividend (R317, R318). An exact zero sum has the
sign of both operands, or, where they differ, minus under rounding toward minus infinity alone (R303, R304, R331, R332); a zero
product or quotient has the exclusive-or of the signs (R307, R315). -/
def Obligations.FloatOperationsRoundCorrectly : Prop :=
  ∀ (f : FpFormat) (c : Config) (rm : Rounding) (free : BitVec 64) (a b : Nat), f = fpSingle ∨ f = fpDouble →
    FpFinite f a → FpFinite f b →
    (∀ e ∈ ([(fpAdd f c rm free a b, fpVal f a + fpVal f b, fpNeg f b), (fpSub f c rm free a b, fpVal f a - fpVal f b, !fpNeg f b)] :
        List (FpResult × Int × Bool)),
      (e.2.1 ≠ 0 → FpDelivers f c.fpTinyAfter rm e.2.1 1 e.1) ∧
      (e.2.1 = 0 → e.1.flags = 0#9 ∧ e.1.bits = fpPattern f (if fpNeg f a = e.2.2 then fpNeg f a else decide (rm = .down)) 0)) ∧
    (fpVal f a * fpVal f b ≠ 0 → FpDelivers f c.fpTinyAfter rm (fpVal f a * fpVal f b) (2 ^ f.unit) (fpMul f c rm free a b)) ∧
    (fpVal f a * fpVal f b = 0 →
      (fpMul f c rm free a b).flags = 0#9 ∧ (fpMul f c rm free a b).bits = fpPattern f (fpNeg f a != fpNeg f b) 0) ∧
    (fpVal f b ≠ 0 →
      (fpVal f a ≠ 0 →
        FpDelivers f c.fpTinyAfter rm (fpVal f a * 2 ^ f.unit * (fpVal f b).sign) (fpVal f b).natAbs (fpDiv f c rm free a b)) ∧
      (fpVal f a = 0 →
        (fpDiv f c rm free a b).flags = 0#9 ∧ (fpDiv f c rm free a b).bits = fpPattern f (fpNeg f a != fpNeg f b) 0) ∧
      ∀ n : Int, RoundsToInt (if c.fpRemKind = .ieee then .nearest else .zero) (fpVal f a * (fpVal f b).sign) (fpVal f b).natAbs n →
        FpFinite f (fpRem f c rm free a b).bits ∧ fpVal f (fpRem f c rm free a b).bits = fpVal f a - fpVal f b * n ∧
        (fpRem f c rm free a b).flags = 0#9 ∧
        (fpVal f a = fpVal f b * n → (fpRem f c rm free a b).bits = fpPattern f (fpNeg f a) 0))

/-- The special results: a NaN operand gives a quiet NaN, without a flag where no operand is signalling and with IVF where one is
(R300; what R300 does not spell out is filled in from IEEE 754, log entry 18, PRESUMED). Invalid, with IVF and a quiet NaN: opposite
infinities added or like ones subtracted (R303, R331), zero times infinity (R315), zero by zero and infinity by infinity (R307), a
remainder of an infinity or by zero (R317, R318). A number by zero gives an infinity and DZF (R307). Other operations on an infinity
are exact: the sum and the difference keep it, a product or a quotient of it is infinite, a number by it is zero, a remainder by
it is the dividend. -/
def Obligations.FloatSpecialResults : Prop :=
  ∀ (f : FpFormat) (c : Config) (rm : Rounding) (free : BitVec 64) (a b : Nat), f = fpSingle ∨ f = fpDouble →
    a < 2 ^ f.width → b < 2 ^ f.width →
    let quiet : FpResult → Prop := fun r => fpIsNan f r.bits = true ∧ fpIsSnan f r.bits = false
    let invalid : FpResult → Prop := fun r => quiet r ∧ r.flags = flIVF
    let exact : FpResult → Nat → Prop := fun r v => r.bits = v ∧ r.flags = 0#9
    let neg := fpNeg f a != fpNeg f b
    (fpIsNan f a = true ∨ fpIsNan f b = true →
      ∀ r ∈ [fpAdd f c rm free a b, fpSub f c rm free a b, fpMul f c rm free a b, fpDiv f c rm free a b, fpRem f c rm free a b],
        quiet r ∧ (fpIsSnan f a = false ∧ fpIsSnan f b = false → r.flags = 0#9) ∧
          (fpIsSnan f a = true ∨ fpIsSnan f b = true → r.flags = flIVF)) ∧
    (fpIsInf f a = true → fpIsInf f b = true →
      (neg = true → invalid (fpAdd f c rm free a b) ∧ exact (fpSub f c rm free a b) a) ∧
      (neg = false → exact (fpAdd f c rm free a b) a ∧ invalid (fpSub f c rm free a b)) ∧
      exact (fpMul f c rm free a b) (fpPattern f neg (fpInfMag f)) ∧
      invalid (fpDiv f c rm free a b) ∧ invalid (fpRem f c rm free a b)) ∧
    (fpIsInf f a = true → FpFinite f b →
      exact (fpAdd f c rm free a b) a ∧ exact (fpSub f c rm free a b) a ∧
      (fpIsZero f b = true → invalid (fpMul f c rm free a b)) ∧
      (fpIsZero f b = false → exact (fpMul f c rm free a b) (fpPattern f neg (fpInfMag f))) ∧
      exact (fpDiv f c rm free a b) (fpPattern f neg (fpInfMag f)) ∧ invalid (fpRem f c rm free a b)) ∧
    (FpFinite f a → fpIsInf f b = true →
      exact (fpAdd f c rm free a b) b ∧ exact (fpSub f c rm free a b) (fpPattern f (!fpNeg f b) (fpInfMag f)) ∧
      (fpIsZero f a = true → invalid (fpMul f c rm free a b)) ∧
      (fpIsZero f a = false → exact (fpMul f c rm free a b) (fpPattern f neg (fpInfMag f))) ∧
      exact (fpDiv f c rm free a b) (fpPattern f neg 0) ∧ exact (fpRem f c rm free a b) a) ∧
    (FpFinite f a → fpIsZero f b = true →
      invalid (fpRem f c rm free a b) ∧
      (fpIsZero f a = true → invalid (fpDiv f c rm free a b)) ∧
      (fpIsZero f a = false →
        (fpDiv f c rm free a b).bits = fpPattern f neg (fpInfMag f) ∧ (fpDiv f c rm free a b).flags = flDZF))

/-! ### Vectors -/

/-- The packed additions, subtractions and the saturating multiplication, element by element (R351, R352, R355 to R362, R438, R459 to
R466). -/
def Obligations.VectorArithmetic : Prop :=
  ∀ (s : State) (rD rA rB : RegNum), s.cfg.hasVdx64 = true → s.cfg.xlen = .x64 →
    (∀ e ∈ ([(.lvAddB rD rA rB, 8, fun a b => a + b), (.lvAdduB rD rA rB, 8, fun a b => a + b), (.lvSubB rD rA rB, 8, fun a b => a - b),
        (.lvSubuB rD rA rB, 8, fun a b => a - b), (.lvAddH rD rA rB, 16, fun a b => a + b), (.lvAdduH rD rA rB, 16, fun a b => a + b),
        (.lvSubH rD rA rB, 16, fun a b => a - b), (.lvSubuH rD rA rB, 16, fun a b => a - b)] : List (Instr × Nat × (Int → Int → Int))),
      VectorCompletes e.1 s rD e.2.1 fun k =>
        wrap e.2.1 (e.2.2 (elemU e.2.1 k (s.uval rA)) (elemU e.2.1 k (s.uval rB)))) ∧
    (∀ e ∈ ([(.lvAddsB rD rA rB, 8, fun a b => a + b), (.lvSubsB rD rA rB, 8, fun a b => a - b), (.lvAddsH rD rA rB, 16, fun a b => a + b),
        (.lvSubsH rD rA rB, 16, fun a b => a - b), (.lvMulsH rD rA rB, 16, fun a b => a * b)] : List (Instr × Nat × (Int → Int → Int))),
      VectorCompletes e.1 s rD e.2.1 fun k =>
        wrap e.2.1 (min (2 ^ (e.2.1 - 1) - 1)
          (max (-(2 ^ (e.2.1 - 1))) (e.2.2 (elemS e.2.1 k (s.uval rA)) (elemS e.2.1 k (s.uval rB)))))) ∧
    (∀ e ∈ ([(.lvAddusB rD rA rB, 8, fun a b => a + b), (.lvSubusB rD rA rB, 8, fun a b => a - b), (.lvAddusH rD rA rB, 16, fun a b => a + b),
        (.lvSubusH rD rA rB, 16, fun a b => a - b)] : List (Instr × Nat × (Nat → Nat → Nat))),
      VectorCompletes e.1 s rD e.2.1 fun k =>
        min (2 ^ e.2.1 - 1) (e.2.2 (elemU e.2.1 k (s.uval rA)) (elemU e.2.1 k (s.uval rB))))

/-- The packed compares: an element of ones where the relation holds, of zeros where not, the elements taken as signed unless the
configuration says otherwise (R353, R390 to R401); `lv.all_*` and `lv.any_*` give 64 ones or zeros, and SR[F] only under
`LV_SETS_F` (R354, R363 to R374, R376 to R387). -/
def Obligations.VectorCompare : Prop :=
  ∀ (s : State) (rD rA rB : RegNum), s.cfg.hasVdx64 = true → s.cfg.xlen = .x64 →
    ∀ e ∈ ([(8, .lvCmpEqB rD rA rB, .lvAllEqB rD rA rB, .lvAnyEqB rD rA rB, fun a b => a = b),
        (8, .lvCmpNeB rD rA rB, .lvAllNeB rD rA rB, .lvAnyNeB rD rA rB, fun a b => a ≠ b),
        (8, .lvCmpGtB rD rA rB, .lvAllGtB rD rA rB, .lvAnyGtB rD rA rB, fun a b => b < a),
        (8, .lvCmpGeB rD rA rB, .lvAllGeB rD rA rB, .lvAnyGeB rD rA rB, fun a b => b ≤ a),
        (8, .lvCmpLtB rD rA rB, .lvAllLtB rD rA rB, .lvAnyLtB rD rA rB, fun a b => a < b),
        (8, .lvCmpLeB rD rA rB, .lvAllLeB rD rA rB, .lvAnyLeB rD rA rB, fun a b => a ≤ b),
        (16, .lvCmpEqH rD rA rB, .lvAllEqH rD rA rB, .lvAnyEqH rD rA rB, fun a b => a = b),
        (16, .lvCmpNeH rD rA rB, .lvAllNeH rD rA rB, .lvAnyNeH rD rA rB, fun a b => a ≠ b),
        (16, .lvCmpGtH rD rA rB, .lvAllGtH rD rA rB, .lvAnyGtH rD rA rB, fun a b => b < a),
        (16, .lvCmpGeH rD rA rB, .lvAllGeH rD rA rB, .lvAnyGeH rD rA rB, fun a b => b ≤ a),
        (16, .lvCmpLtH rD rA rB, .lvAllLtH rD rA rB, .lvAnyLtH rD rA rB, fun a b => a < b),
        (16, .lvCmpLeH rD rA rB, .lvAllLeH rD rA rB, .lvAnyLeH rD rA rB, fun a b => a ≤ b)] :
        List (Nat × Instr × Instr × Instr × (Int → Int → Prop))),
      let elem : Nat → Nat → Int := fun k v => if s.cfg.lvCmpSigned then elemS e.1 k v else elemU e.1 k v
      let holds : Nat → Prop := fun k => e.2.2.2.2 (elem k (s.uval rA)) (elem k (s.uval rB))
      let flagged : Prop → State → Prop := fun c t =>
        (c → t.uval rD = 2 ^ 64 - 1) ∧ (¬ c → t.uval rD = 0) ∧ (s.cfg.lvSetsF = true → (t.flagF = true ↔ c)) ∧
          (s.cfg.lvSetsF = false → t.flagF = s.flagF)
      (Completes e.2.1 s [.reg rD] fun t => ∀ k < 64 / e.1,
        (holds k → elemU e.1 k (t.uval rD) = 2 ^ e.1 - 1) ∧ (¬ holds k → elemU e.1 k (t.uval rD) = 0)) ∧
      Completes e.2.2.1 s [.reg rD, .sr srF] (flagged (∀ k < 64 / e.1, holds k)) ∧
      Completes e.2.2.2.1 s [.reg rD, .sr srF] (flagged (∃ k < 64 / e.1, holds k))

/-- Packed maximum, minimum and average (R388, R389, R431, R432, R435, R436), the average under each value of `LV_AVG`; the packed
logic instructions on all 64 bits (R375, R439 to R441, R469). -/
def Obligations.VectorSelectAndLogic : Prop :=
  ∀ (s : State) (rD rA rB : RegNum), s.cfg.hasVdx64 = true → s.cfg.xlen = .x64 →
    (∀ e ∈ ([(8, .lvMaxB rD rA rB, .lvMinB rD rA rB, .lvAvgB rD rA rB), (16, .lvMaxH rD rA rB, .lvMinH rD rA rB, .lvAvgH rD rA rB)] :
        List (Nat × Instr × Instr × Instr)),
      let a : Nat → Nat := fun k => elemU e.1 k (s.uval rA)
      let b : Nat → Nat := fun k => elemU e.1 k (s.uval rB)
      let less : Nat → Prop := fun k =>
        if s.cfg.lvCmpSigned then elemS e.1 k (s.uval rA) < elemS e.1 k (s.uval rB) else a k < b k
      Completes e.2.1 s [.reg rD] (fun t => ∀ k < 64 / e.1,
        (less k → elemU e.1 k (t.uval rD) = b k) ∧ (¬ less k → elemU e.1 k (t.uval rD) = a k)) ∧
      Completes e.2.2.1 s [.reg rD] (fun t => ∀ k < 64 / e.1,
        (less k → elemU e.1 k (t.uval rD) = a k) ∧ (¬ less k → elemU e.1 k (t.uval rD) = b k)) ∧
      Completes e.2.2.2 s [.reg rD] (fun t => ∀ k < 64 / e.1,
        (s.cfg.lvAvg = .exact → elemU e.1 k (t.uval rD) = (a k + b k) / 2) ∧
        (s.cfg.lvAvg = .wrap → elemU e.1 k (t.uval rD) = (a k + b k) % 2 ^ e.1 / 2) ∧
        (s.cfg.lvAvg = .signed →
          elemU e.1 k (t.uval rD) = wrap e.1 ((elemS e.1 k (s.uval rA) + elemS e.1 k (s.uval rB)) / 2)))) ∧
    (∀ e ∈ ([(.lvAnd rD rA rB, s.uval rA &&& s.uval rB), (.lvOr rD rA rB, s.uval rA ||| s.uval rB),
        (.lvXor rD rA rB, s.uval rA ^^^ s.uval rB), (.lvNand rD rA rB, 2 ^ 64 - 1 - (s.uval rA &&& s.uval rB)),
        (.lvNor rD rA rB, 2 ^ 64 - 1 - (s.uval rA ||| s.uval rB))] : List (Instr × Nat)),
      Completes e.1 s [.reg rD] fun t => t.uval rD = e.2)

/-- The packed shifts and rotates: each element of `rA` by the low 3 or 4 bits of that of `rB`; the whole-register shifts by the low 3
bits of `rB`, or refused, or illegal, as `LV_WHOLE_SHIFT` says (R449 to R458). -/
def Obligations.VectorShift : Prop :=
  ∀ (s : State) (rD rA rB : RegNum), s.cfg.hasVdx64 = true → s.cfg.xlen = .x64 →
    (∀ e ∈ ([(8, .lvSllB rD rA rB, .lvSrlB rD rA rB, .lvSraB rD rA rB, .lvRlB rD rA rB),
        (16, .lvSllH rD rA rB, .lvSrlH rD rA rB, .lvSraH rD rA rB, .lvRlH rD rA rB)] : List (Nat × Instr × Instr × Instr × Instr)),
      let a : Nat → Nat := fun k => elemU e.1 k (s.uval rA)
      let n : Nat → Nat := fun k => elemU e.1 k (s.uval rB) % e.1
      VectorCompletes e.2.1 s rD e.1 (fun k => a k * 2 ^ n k % 2 ^ e.1) ∧
      VectorCompletes e.2.2.1 s rD e.1 (fun k => a k / 2 ^ n k) ∧
      VectorCompletes e.2.2.2.1 s rD e.1 (fun k => wrap e.1 (elemS e.1 k (s.uval rA) / 2 ^ n k)) ∧
      VectorCompletes e.2.2.2.2 s rD e.1 (fun k => a k * 2 ^ n k % 2 ^ e.1 + a k / 2 ^ (e.1 - n k))) ∧
    (∀ e ∈ ([(.lvSll rD rA rB, s.uval rA * 2 ^ (s.uval rB % 8) % 2 ^ 64), (.lvSrl rD rA rB, s.uval rA / 2 ^ (s.uval rB % 8))] :
        List (Instr × Nat)),
      (s.cfg.lvWholeShift = .line → Completes e.1 s [.reg rD] fun t => t.uval rD = e.2) ∧
      (s.cfg.lvWholeShift = .illegal → RaisesIllegal e.1 s) ∧
      (s.cfg.lvWholeShift = .refuse → exec e.1 s = .refused .wholeShiftUndefined))

/-- Packing, unpacking, merging and permuting (R433, R434, R442 to R448, R467, R468): `rB` fills the lower half of a packed result
and `rA` the upper; the merges under each value of `LV_MERGE`. -/
def Obligations.VectorPackMergePermute : Prop :=
  ∀ (s : State) (rD rA rB : RegNum), s.cfg.hasVdx64 = true → s.cfg.xlen = .x64 →
    (∀ e ∈ ([(4, .lvPackB rD rA rB, .lvPacksB rD rA rB, .lvPackusB rD rA rB), (8, .lvPackH rD rA rB, .lvPacksH rD rA rB, .lvPackusH rD rA rB)] :
        List (Nat × Instr × Instr × Instr)),
      let h := e.1
      let half := 64 / (2 * h)
      let srcU : Nat → Nat := fun k => if k < half then elemU (2 * h) k (s.uval rB) else elemU (2 * h) (k - half) (s.uval rA)
      let srcS : Nat → Int := fun k => if k < half then elemS (2 * h) k (s.uval rB) else elemS (2 * h) (k - half) (s.uval rA)
      VectorCompletes e.2.1 s rD h (fun k => srcU k % 2 ^ h) ∧
      VectorCompletes e.2.2.1 s rD h (fun k => wrap h (min (2 ^ (h - 1) - 1) (max (-(2 ^ (h - 1))) (srcS k)))) ∧
      VectorCompletes e.2.2.2 s rD h (fun k => min (2 ^ h - 1) (srcU k))) ∧
    VectorCompletes (.lvUnpackB rD rA rB) s rD 8 (fun k => wrap 8 (elemS 4 k (s.uval rA))) ∧
    VectorCompletes (.lvUnpackH rD rA rB) s rD 16 (fun k => wrap 16 (elemS 8 k (s.uval rA))) ∧
    VectorCompletes (.lvPermN rD rA rB) s rD 4 (fun k => elemU 4 (elemU 4 k (s.uval rB)) (s.uval rA)) ∧
    (∀ e ∈ ([(8, .lvMergeB rD rA rB), (16, .lvMergeH rD rA rB)] : List (Nat × Instr)),
      VectorCompletes e.2 s rD e.1 fun k =>
        elemU e.1 (if s.cfg.lvMerge = .line then k else k / 2) (if k % 2 = 0 then s.uval rB else s.uval rA))
end

