-- ==== Sys2Proof/Laws/Decode.lean ====
section
/-! SUPPORT. Fields of instruction words, the disjointness of the rows of the opcode table, and what decoding
does with the word of a row. -/

namespace Sys2Proof

/-! ### Fields -/

theorem put_getLsbD {n : Nat} (lo : Nat) (v : BitVec n) (j : Nat) :
    (put lo v).getLsbD j = (decide (j < 32) && (!decide (j < lo) && v.getLsbD (j - lo))) := by
  rw [put, BitVec.getLsbD_shiftLeft, BitVec.getLsbD_setWidth]
  by_cases h : j < 32
  · by_cases h' : j < lo
    · simp [h, h']
    · simp [h, h']; omega
  · simp [h]

theorem field_getLsbD (lo n : Nat) (w : InsnWord) (j : Nat) :
    (field lo n w).getLsbD j = (decide (j < n) && w.getLsbD (lo + j)) := by
  rw [field, BitVec.getLsbD_extractLsb']

theorem field_or (lo n : Nat) (a b : InsnWord) : field lo n (a ||| b) = field lo n a ||| field lo n b := by
  apply BitVec.eq_of_getLsbD_eq; intro j _
  simp only [field_getLsbD, BitVec.getLsbD_or, Bool.and_or_distrib_left]

/-- A field placed and read. -/
theorem field_put_same {n lo : Nat} (v : BitVec n) (h : lo + n ≤ 32) : field lo n (put lo v) = v := by
  apply BitVec.eq_of_getLsbD_eq; intro j hj
  rw [field_getLsbD, put_getLsbD]
  simp [hj, show lo + j < 32 by omega]

/-- A field is not seen through another. -/
theorem field_put_other {n m lo hi : Nat} (v : BitVec m) (h : hi + m ≤ lo ∨ lo + n ≤ hi) : field lo n (put hi v) = 0#n := by
  apply BitVec.eq_of_getLsbD_eq; intro j hj
  rw [field_getLsbD, put_getLsbD]
  by_cases h1 : lo + j < hi
  · simp [h1]
  · have : v.getLsbD (lo + j - hi) = false := BitVec.getLsbD_of_ge _ _ (by omega)
    simp [this]

theorem or_and (a b m : InsnWord) : (a ||| b) &&& m = (a &&& m) ||| (b &&& m) := by
  apply BitVec.eq_of_getLsbD_eq; intro j _
  simp only [BitVec.getLsbD_and, BitVec.getLsbD_or, Bool.and_or_distrib_right]

theorem field_bit {n lo j : Nat} {m : InsnWord} {x : BitVec n} (h : field lo n m = x) (hj : lo ≤ j) (hn : j - lo < n) :
    m.getLsbD j = x.getLsbD (j - lo) := by
  rw [← h, field_getLsbD, show lo + (j - lo) = j by omega]
  simp [hn]

/-- A mask that does not see a field. -/
theorem put_and_zero {n lo : Nat} {m : InsnWord} (v : BitVec n) (h : field lo n m = 0#n) : put lo v &&& m = 0#32 := by
  apply BitVec.eq_of_getLsbD_eq; intro j _
  rw [BitVec.getLsbD_and, put_getLsbD]
  by_cases h1 : j < lo
  · simp [h1]
  · by_cases h2 : j - lo < n
    · rw [field_bit h (by omega) h2]; simp
    · rw [BitVec.getLsbD_of_ge v _ (by omega)]; simp

/-- A mask that sees a field whole. -/
theorem put_and_self {n lo : Nat} {m : InsnWord} (v : BitVec n) (h : field lo n m = BitVec.allOnes n) : put lo v &&& m = put lo v := by
  apply BitVec.eq_of_getLsbD_eq; intro j _
  rw [BitVec.getLsbD_and, put_getLsbD]
  by_cases h1 : j < lo
  · simp [h1]
  · by_cases h2 : j - lo < n
    · rw [field_bit h (by omega) h2]; simp [h2]
    · rw [BitVec.getLsbD_of_ge v _ (by omega)]; simp

/-- The split immediate, put together again (R103). -/
theorem split_append (imm : BitVec 16) : imm.extractLsb' 11 5 ++ imm.extractLsb' 0 11 = imm := by
  apply BitVec.eq_of_getLsbD_eq; intro j hj
  rw [BitVec.getLsbD_append]
  by_cases h : j < 11
  · simp [h]
  · simp [h, show j - 11 < 5 by omega, show 11 + (j - 11) = j by omega]

/-- The three slices of the free bits of `FCUST` put together. -/
theorem free_append (c : BitVec 12) : c.extractLsb' 7 5 ++ c.extractLsb' 4 3 ++ c.extractLsb' 0 4 = c := by
  apply BitVec.eq_of_getLsbD_eq; intro j hj
  rw [BitVec.getLsbD_append, BitVec.getLsbD_append]
  by_cases h : j < 4
  · simp [h]
  · by_cases h2 : j - 4 < 3
    · simp [h, h2, show 4 + (j - 4) = j by omega]
    · simp [h, h2, show j - 4 - 3 < 5 by omega, show 7 + (j - 4 - 3) = j by omega]

/-- The bytes of a word spell it (R76, R103). -/
theorem wordOfBytes_bytesOfWord (w : InsnWord) :
    wordOfBytes (w.extractLsb' 24 8) (w.extractLsb' 16 8) (w.extractLsb' 8 8) (w.extractLsb' 0 8) = w := by
  apply BitVec.eq_of_getLsbD_eq; intro j hj
  simp only [wordOfBytes, BitVec.getLsbD_append, BitVec.getLsbD_extractLsb']
  by_cases h1 : j < 8
  · simp [h1]
  · by_cases h2 : j - 8 < 8
    · simp [h1, h2, show 8 + (j - 8) = j by omega]
    · by_cases h3 : j - 8 - 8 < 8
      · simp [h1, h2, h3, show 16 + (j - 8 - 8) = j by omega]
      · simp [h1, h2, h3, show j - 8 - 8 - 8 < 8 by omega, show 24 + (j - 8 - 8 - 8) = j by omega]

theorem decode_bytesOfWord (w : InsnWord) : decode (bytesOfWord w) = decodeWord w := by
  simp only [bytesOfWord, decode, wordOfBytes_bytesOfWord]

/-! ### Rows -/

/-- Two rows differ in a bit that identifies both. -/
def RowsDiffer (r q : OpcodeRow) : Prop := (r.pattern ^^^ q.pattern) &&& (r.mask &&& q.mask) ≠ 0#32

theorem opcodeTable_rowsDiffer :
    opcodeTable.Pairwise fun r q => (r.pattern ^^^ q.pattern) &&& (r.mask &&& q.mask) ≠ 0#32 := by decide +kernel

theorem rows_match_one {r q : OpcodeRow} {w : InsnWord} (h : RowsDiffer r q) (hr : w &&& r.mask = r.pattern) :
    w &&& q.mask ≠ q.pattern := by
  intro hq
  apply h
  rw [← hr, ← hq]
  apply BitVec.eq_of_getLsbD_eq; intro j _
  simp only [BitVec.getLsbD_and, BitVec.getLsbD_xor, BitVec.getLsbD_zero]
  cases w.getLsbD j <;> cases r.mask.getLsbD j <;> cases q.mask.getLsbD j <;> rfl

/-- The row a word matches is the row the decoder finds. -/
theorem findRow_of_mem {r : OpcodeRow} {w : InsnWord} (hr : r ∈ opcodeTable) (hm : w &&& r.mask = r.pattern) :
    findRow w = some r := by
  have key : ∀ l : List OpcodeRow, l.Pairwise (fun r q => (r.pattern ^^^ q.pattern) &&& (r.mask &&& q.mask) ≠ 0#32) → r ∈ l →
      l.find? (fun q => w &&& q.mask == q.pattern) = some r := by
    intro l
    induction l with
    | nil => intro _ h; simp at h
    | cons q rest ih =>
      intro hp hmem
      rw [List.pairwise_cons] at hp
      rcases List.mem_cons.1 hmem with rfl | h
      · rw [List.find?_cons_of_pos (by simpa using hm)]
      · have hne : w &&& q.mask ≠ q.pattern := fun hq => rows_match_one (hp.1 r h) hq hm
        rw [List.find?_cons_of_neg (by simpa using hne)]
        exact ih hp.2 h
  exact key _ opcodeTable_rowsDiffer hr

theorem findRow_none {w : InsnWord} (h : ∀ r ∈ opcodeTable, w &&& r.mask ≠ r.pattern) : findRow w = none := by
  rw [findRow, List.find?_eq_none]
  intro r hr
  simpa using h r hr

theorem findRow_some {w : InsnWord} {r : OpcodeRow} (h : findRow w = some r) : r ∈ opcodeTable ∧ w &&& r.mask = r.pattern := by
  rw [findRow] at h
  exact ⟨List.mem_of_find?_eq_some h, by simpa using List.find?_some h⟩

/-- A word of a row whose reserved bits are zero is the instruction of that row (R115). -/
theorem decodeWord_of_row {k : Nat} {r : OpcodeRow} {w : InsnWord} (hk : opcodeTable[k]? = some r)
    (hm : w &&& r.mask = r.pattern) (hr : w &&& r.reserved = 0#32) : decodeWord w = .instr (r.build w) := by
  rw [decodeWord, findRow_of_mem (List.mem_of_getElem? hk) hm]
  simp [hr]

end Sys2Proof
end

