-- ==== Sys2Proof/Laws/State.lean ====
section
/-! SUPPORT. One lemma for each field of each update of the state, true by unfolding, so that no later
proof unfolds a record update. -/

namespace Sys2Proof.Machine

@[simp] theorem State.setReg_cfg (s : State) (d : RegNum) {n : Nat} (v : BitVec n) : (s.setReg d v).cfg = s.cfg := rfl
@[simp] theorem State.setReg_regs (s : State) (d : RegNum) {n : Nat} (v : BitVec n) :
    (s.setReg d v).regs = s.regs.set d.toNat (v.setWidth 64) d.isLt := rfl
@[simp] theorem State.setReg_pc (s : State) (d : RegNum) {n : Nat} (v : BitVec n) : (s.setReg d v).pc = s.pc := rfl
@[simp] theorem State.setReg_ppc (s : State) (d : RegNum) {n : Nat} (v : BitVec n) : (s.setReg d v).ppc = s.ppc := rfl
@[simp] theorem State.setReg_ds (s : State) (d : RegNum) {n : Nat} (v : BitVec n) : (s.setReg d v).ds = s.ds := rfl
@[simp] theorem State.setReg_sr (s : State) (d : RegNum) {n : Nat} (v : BitVec n) : (s.setReg d v).sr = s.sr := rfl
@[simp] theorem State.setReg_epcr (s : State) (d : RegNum) {n : Nat} (v : BitVec n) :
    (s.setReg d v).epcr = s.epcr := rfl
@[simp] theorem State.setReg_esr (s : State) (d : RegNum) {n : Nat} (v : BitVec n) : (s.setReg d v).esr = s.esr := rfl
@[simp] theorem State.setReg_eear (s : State) (d : RegNum) {n : Nat} (v : BitVec n) :
    (s.setReg d v).eear = s.eear := rfl
@[simp] theorem State.setReg_evbar (s : State) (d : RegNum) {n : Nat} (v : BitVec n) :
    (s.setReg d v).evbar = s.evbar := rfl
@[simp] theorem State.setReg_aecr (s : State) (d : RegNum) {n : Nat} (v : BitVec n) :
    (s.setReg d v).aecr = s.aecr := rfl
@[simp] theorem State.setReg_aesr (s : State) (d : RegNum) {n : Nat} (v : BitVec n) :
    (s.setReg d v).aesr = s.aesr := rfl
@[simp] theorem State.setReg_machi (s : State) (d : RegNum) {n : Nat} (v : BitVec n) :
    (s.setReg d v).machi = s.machi := rfl
@[simp] theorem State.setReg_maclo (s : State) (d : RegNum) {n : Nat} (v : BitVec n) :
    (s.setReg d v).maclo = s.maclo := rfl
@[simp] theorem State.setReg_fpcsr (s : State) (d : RegNum) {n : Nat} (v : BitVec n) :
    (s.setReg d v).fpcsr = s.fpcsr := rfl
@[simp] theorem State.setReg_fpmaddhi (s : State) (d : RegNum) {n : Nat} (v : BitVec n) :
    (s.setReg d v).fpmaddhi = s.fpmaddhi := rfl
@[simp] theorem State.setReg_fpmaddlo (s : State) (d : RegNum) {n : Nat} (v : BitVec n) :
    (s.setReg d v).fpmaddlo = s.fpmaddlo := rfl
@[simp] theorem State.setReg_vmachi (s : State) (d : RegNum) {n : Nat} (v : BitVec n) :
    (s.setReg d v).vmachi = s.vmachi := rfl
@[simp] theorem State.setReg_vmaclo (s : State) (d : RegNum) {n : Nat} (v : BitVec n) :
    (s.setReg d v).vmaclo = s.vmaclo := rfl
@[simp] theorem State.setReg_resv (s : State) (d : RegNum) {n : Nat} (v : BitVec n) :
    (s.setReg d v).resv = s.resv := rfl
@[simp] theorem State.setReg_mem (s : State) (d : RegNum) {n : Nat} (v : BitVec n) : (s.setReg d v).mem = s.mem := rfl
@[simp] theorem State.setReg_stale (s : State) (d : RegNum) {n : Nat} (v : BitVec n) :
    (s.setReg d v).stale = s.stale := rfl
@[simp] theorem State.setReg_inputs (s : State) (d : RegNum) {n : Nat} (v : BitVec n) :
    (s.setReg d v).inputs = s.inputs := rfl
@[simp] theorem State.setReg_draws (s : State) (d : RegNum) {n : Nat} (v : BitVec n) :
    (s.setReg d v).draws = s.draws := rfl

@[simp] theorem State.setSrBit_cfg (s : State) (i : Nat) (b : Bool) : (s.setSrBit i b).cfg = s.cfg := rfl
@[simp] theorem State.setSrBit_regs (s : State) (i : Nat) (b : Bool) : (s.setSrBit i b).regs = s.regs := rfl
@[simp] theorem State.setSrBit_pc (s : State) (i : Nat) (b : Bool) : (s.setSrBit i b).pc = s.pc := rfl
@[simp] theorem State.setSrBit_ppc (s : State) (i : Nat) (b : Bool) : (s.setSrBit i b).ppc = s.ppc := rfl
@[simp] theorem State.setSrBit_ds (s : State) (i : Nat) (b : Bool) : (s.setSrBit i b).ds = s.ds := rfl
@[simp] theorem State.setSrBit_sr (s : State) (i : Nat) (b : Bool) : (s.setSrBit i b).sr = setBit s.sr i b := rfl
@[simp] theorem State.setSrBit_epcr (s : State) (i : Nat) (b : Bool) : (s.setSrBit i b).epcr = s.epcr := rfl
@[simp] theorem State.setSrBit_esr (s : State) (i : Nat) (b : Bool) : (s.setSrBit i b).esr = s.esr := rfl
@[simp] theorem State.setSrBit_eear (s : State) (i : Nat) (b : Bool) : (s.setSrBit i b).eear = s.eear := rfl
@[simp] theorem State.setSrBit_evbar (s : State) (i : Nat) (b : Bool) : (s.setSrBit i b).evbar = s.evbar := rfl
@[simp] theorem State.setSrBit_aecr (s : State) (i : Nat) (b : Bool) : (s.setSrBit i b).aecr = s.aecr := rfl
@[simp] theorem State.setSrBit_aesr (s : State) (i : Nat) (b : Bool) : (s.setSrBit i b).aesr = s.aesr := rfl
@[simp] theorem State.setSrBit_machi (s : State) (i : Nat) (b : Bool) : (s.setSrBit i b).machi = s.machi := rfl
@[simp] theorem State.setSrBit_maclo (s : State) (i : Nat) (b : Bool) : (s.setSrBit i b).maclo = s.maclo := rfl
@[simp] theorem State.setSrBit_fpcsr (s : State) (i : Nat) (b : Bool) : (s.setSrBit i b).fpcsr = s.fpcsr := rfl
@[simp] theorem State.setSrBit_fpmaddhi (s : State) (i : Nat) (b : Bool) :
    (s.setSrBit i b).fpmaddhi = s.fpmaddhi := rfl
@[simp] theorem State.setSrBit_fpmaddlo (s : State) (i : Nat) (b : Bool) :
    (s.setSrBit i b).fpmaddlo = s.fpmaddlo := rfl
@[simp] theorem State.setSrBit_vmachi (s : State) (i : Nat) (b : Bool) : (s.setSrBit i b).vmachi = s.vmachi := rfl
@[simp] theorem State.setSrBit_vmaclo (s : State) (i : Nat) (b : Bool) : (s.setSrBit i b).vmaclo = s.vmaclo := rfl
@[simp] theorem State.setSrBit_resv (s : State) (i : Nat) (b : Bool) : (s.setSrBit i b).resv = s.resv := rfl
@[simp] theorem State.setSrBit_mem (s : State) (i : Nat) (b : Bool) : (s.setSrBit i b).mem = s.mem := rfl
@[simp] theorem State.setSrBit_stale (s : State) (i : Nat) (b : Bool) : (s.setSrBit i b).stale = s.stale := rfl
@[simp] theorem State.setSrBit_inputs (s : State) (i : Nat) (b : Bool) : (s.setSrBit i b).inputs = s.inputs := rfl
@[simp] theorem State.setSrBit_draws (s : State) (i : Nat) (b : Bool) : (s.setSrBit i b).draws = s.draws := rfl

@[simp] theorem State.spend_cfg (s : State) : s.spend.cfg = s.cfg := rfl
@[simp] theorem State.spend_regs (s : State) : s.spend.regs = s.regs := rfl
@[simp] theorem State.spend_pc (s : State) : s.spend.pc = s.pc := rfl
@[simp] theorem State.spend_ppc (s : State) : s.spend.ppc = s.ppc := rfl
@[simp] theorem State.spend_ds (s : State) : s.spend.ds = s.ds := rfl
@[simp] theorem State.spend_sr (s : State) : s.spend.sr = s.sr := rfl
@[simp] theorem State.spend_epcr (s : State) : s.spend.epcr = s.epcr := rfl
@[simp] theorem State.spend_esr (s : State) : s.spend.esr = s.esr := rfl
@[simp] theorem State.spend_eear (s : State) : s.spend.eear = s.eear := rfl
@[simp] theorem State.spend_evbar (s : State) : s.spend.evbar = s.evbar := rfl
@[simp] theorem State.spend_aecr (s : State) : s.spend.aecr = s.aecr := rfl
@[simp] theorem State.spend_aesr (s : State) : s.spend.aesr = s.aesr := rfl
@[simp] theorem State.spend_machi (s : State) : s.spend.machi = s.machi := rfl
@[simp] theorem State.spend_maclo (s : State) : s.spend.maclo = s.maclo := rfl
@[simp] theorem State.spend_fpcsr (s : State) : s.spend.fpcsr = s.fpcsr := rfl
@[simp] theorem State.spend_fpmaddhi (s : State) : s.spend.fpmaddhi = s.fpmaddhi := rfl
@[simp] theorem State.spend_fpmaddlo (s : State) : s.spend.fpmaddlo = s.fpmaddlo := rfl
@[simp] theorem State.spend_vmachi (s : State) : s.spend.vmachi = s.vmachi := rfl
@[simp] theorem State.spend_vmaclo (s : State) : s.spend.vmaclo = s.vmaclo := rfl
@[simp] theorem State.spend_resv (s : State) : s.spend.resv = s.resv := rfl
@[simp] theorem State.spend_mem (s : State) : s.spend.mem = s.mem := rfl
@[simp] theorem State.spend_stale (s : State) : s.spend.stale = s.stale := rfl
@[simp] theorem State.spend_inputs (s : State) : s.spend.inputs = s.inputs := rfl
@[simp] theorem State.spend_draws (s : State) : s.spend.draws = s.draws + 1 := rfl

@[simp] theorem State.goto_cfg (s : State) (a : BitVec 64) : (s.goto a).cfg = s.cfg := rfl
@[simp] theorem State.goto_regs (s : State) (a : BitVec 64) : (s.goto a).regs = s.regs := rfl
@[simp] theorem State.goto_pc (s : State) (a : BitVec 64) : (s.goto a).pc = a := rfl
@[simp] theorem State.goto_ppc (s : State) (a : BitVec 64) : (s.goto a).ppc = s.pc := rfl
@[simp] theorem State.goto_ds (s : State) (a : BitVec 64) : (s.goto a).ds = s.ds := rfl
@[simp] theorem State.goto_sr (s : State) (a : BitVec 64) : (s.goto a).sr = s.sr := rfl
@[simp] theorem State.goto_epcr (s : State) (a : BitVec 64) : (s.goto a).epcr = s.epcr := rfl
@[simp] theorem State.goto_esr (s : State) (a : BitVec 64) : (s.goto a).esr = s.esr := rfl
@[simp] theorem State.goto_eear (s : State) (a : BitVec 64) : (s.goto a).eear = s.eear := rfl
@[simp] theorem State.goto_evbar (s : State) (a : BitVec 64) : (s.goto a).evbar = s.evbar := rfl
@[simp] theorem State.goto_aecr (s : State) (a : BitVec 64) : (s.goto a).aecr = s.aecr := rfl
@[simp] theorem State.goto_aesr (s : State) (a : BitVec 64) : (s.goto a).aesr = s.aesr := rfl
@[simp] theorem State.goto_machi (s : State) (a : BitVec 64) : (s.goto a).machi = s.machi := rfl
@[simp] theorem State.goto_maclo (s : State) (a : BitVec 64) : (s.goto a).maclo = s.maclo := rfl
@[simp] theorem State.goto_fpcsr (s : State) (a : BitVec 64) : (s.goto a).fpcsr = s.fpcsr := rfl
@[simp] theorem State.goto_fpmaddhi (s : State) (a : BitVec 64) : (s.goto a).fpmaddhi = s.fpmaddhi := rfl
@[simp] theorem State.goto_fpmaddlo (s : State) (a : BitVec 64) : (s.goto a).fpmaddlo = s.fpmaddlo := rfl
@[simp] theorem State.goto_vmachi (s : State) (a : BitVec 64) : (s.goto a).vmachi = s.vmachi := rfl
@[simp] theorem State.goto_vmaclo (s : State) (a : BitVec 64) : (s.goto a).vmaclo = s.vmaclo := rfl
@[simp] theorem State.goto_resv (s : State) (a : BitVec 64) : (s.goto a).resv = s.resv := rfl
@[simp] theorem State.goto_mem (s : State) (a : BitVec 64) : (s.goto a).mem = s.mem := rfl
@[simp] theorem State.goto_stale (s : State) (a : BitVec 64) : (s.goto a).stale = s.stale := rfl
@[simp] theorem State.goto_inputs (s : State) (a : BitVec 64) : (s.goto a).inputs = s.inputs := rfl
@[simp] theorem State.goto_draws (s : State) (a : BitVec 64) : (s.goto a).draws = s.draws := rfl

@[simp] theorem State.advance_cfg (s : State) : s.advance.cfg = s.cfg := rfl
@[simp] theorem State.advance_regs (s : State) : s.advance.regs = s.regs := rfl
@[simp] theorem State.advance_pc (s : State) : s.advance.pc = s.nextPc := rfl
@[simp] theorem State.advance_ppc (s : State) : s.advance.ppc = s.pc := rfl
@[simp] theorem State.advance_ds (s : State) : s.advance.ds = none := rfl
@[simp] theorem State.advance_sr (s : State) : s.advance.sr = s.sr := rfl
@[simp] theorem State.advance_epcr (s : State) : s.advance.epcr = s.epcr := rfl
@[simp] theorem State.advance_esr (s : State) : s.advance.esr = s.esr := rfl
@[simp] theorem State.advance_eear (s : State) : s.advance.eear = s.eear := rfl
@[simp] theorem State.advance_evbar (s : State) : s.advance.evbar = s.evbar := rfl
@[simp] theorem State.advance_aecr (s : State) : s.advance.aecr = s.aecr := rfl
@[simp] theorem State.advance_aesr (s : State) : s.advance.aesr = s.aesr := rfl
@[simp] theorem State.advance_machi (s : State) : s.advance.machi = s.machi := rfl
@[simp] theorem State.advance_maclo (s : State) : s.advance.maclo = s.maclo := rfl
@[simp] theorem State.advance_fpcsr (s : State) : s.advance.fpcsr = s.fpcsr := rfl
@[simp] theorem State.advance_fpmaddhi (s : State) : s.advance.fpmaddhi = s.fpmaddhi := rfl
@[simp] theorem State.advance_fpmaddlo (s : State) : s.advance.fpmaddlo = s.fpmaddlo := rfl
@[simp] theorem State.advance_vmachi (s : State) : s.advance.vmachi = s.vmachi := rfl
@[simp] theorem State.advance_vmaclo (s : State) : s.advance.vmaclo = s.vmaclo := rfl
@[simp] theorem State.advance_resv (s : State) : s.advance.resv = s.resv := rfl
@[simp] theorem State.advance_mem (s : State) : s.advance.mem = s.mem := rfl
@[simp] theorem State.advance_stale (s : State) : s.advance.stale = s.stale := rfl
@[simp] theorem State.advance_inputs (s : State) : s.advance.inputs = s.inputs := rfl
@[simp] theorem State.advance_draws (s : State) : s.advance.draws = s.draws := rfl

@[simp] theorem State.setAcc_cfg (s : State) (v : BitVec 64) : (s.setAcc v).cfg = s.cfg := rfl
@[simp] theorem State.setAcc_regs (s : State) (v : BitVec 64) : (s.setAcc v).regs = s.regs := rfl
@[simp] theorem State.setAcc_pc (s : State) (v : BitVec 64) : (s.setAcc v).pc = s.pc := rfl
@[simp] theorem State.setAcc_ppc (s : State) (v : BitVec 64) : (s.setAcc v).ppc = s.ppc := rfl
@[simp] theorem State.setAcc_ds (s : State) (v : BitVec 64) : (s.setAcc v).ds = s.ds := rfl
@[simp] theorem State.setAcc_sr (s : State) (v : BitVec 64) : (s.setAcc v).sr = s.sr := rfl
@[simp] theorem State.setAcc_epcr (s : State) (v : BitVec 64) : (s.setAcc v).epcr = s.epcr := rfl
@[simp] theorem State.setAcc_esr (s : State) (v : BitVec 64) : (s.setAcc v).esr = s.esr := rfl
@[simp] theorem State.setAcc_eear (s : State) (v : BitVec 64) : (s.setAcc v).eear = s.eear := rfl
@[simp] theorem State.setAcc_evbar (s : State) (v : BitVec 64) : (s.setAcc v).evbar = s.evbar := rfl
@[simp] theorem State.setAcc_aecr (s : State) (v : BitVec 64) : (s.setAcc v).aecr = s.aecr := rfl
@[simp] theorem State.setAcc_aesr (s : State) (v : BitVec 64) : (s.setAcc v).aesr = s.aesr := rfl
@[simp] theorem State.setAcc_machi (s : State) (v : BitVec 64) : (s.setAcc v).machi = v.extractLsb' 32 32 := rfl
@[simp] theorem State.setAcc_maclo (s : State) (v : BitVec 64) : (s.setAcc v).maclo = v.extractLsb' 0 32 := rfl
@[simp] theorem State.setAcc_fpcsr (s : State) (v : BitVec 64) : (s.setAcc v).fpcsr = s.fpcsr := rfl
@[simp] theorem State.setAcc_fpmaddhi (s : State) (v : BitVec 64) : (s.setAcc v).fpmaddhi = s.fpmaddhi := rfl
@[simp] theorem State.setAcc_fpmaddlo (s : State) (v : BitVec 64) : (s.setAcc v).fpmaddlo = s.fpmaddlo := rfl
@[simp] theorem State.setAcc_vmachi (s : State) (v : BitVec 64) : (s.setAcc v).vmachi = s.vmachi := rfl
@[simp] theorem State.setAcc_vmaclo (s : State) (v : BitVec 64) : (s.setAcc v).vmaclo = s.vmaclo := rfl
@[simp] theorem State.setAcc_resv (s : State) (v : BitVec 64) : (s.setAcc v).resv = s.resv := rfl
@[simp] theorem State.setAcc_mem (s : State) (v : BitVec 64) : (s.setAcc v).mem = s.mem := rfl
@[simp] theorem State.setAcc_stale (s : State) (v : BitVec 64) : (s.setAcc v).stale = s.stale := rfl
@[simp] theorem State.setAcc_inputs (s : State) (v : BitVec 64) : (s.setAcc v).inputs = s.inputs := rfl
@[simp] theorem State.setAcc_draws (s : State) (v : BitVec 64) : (s.setAcc v).draws = s.draws := rfl

@[simp] theorem storeDatum_cfg (s : State) (pa n v : Nat) : (storeDatum s pa n v).cfg = s.cfg := rfl
@[simp] theorem storeDatum_regs (s : State) (pa n v : Nat) : (storeDatum s pa n v).regs = s.regs := rfl
@[simp] theorem storeDatum_pc (s : State) (pa n v : Nat) : (storeDatum s pa n v).pc = s.pc := rfl
@[simp] theorem storeDatum_ppc (s : State) (pa n v : Nat) : (storeDatum s pa n v).ppc = s.ppc := rfl
@[simp] theorem storeDatum_ds (s : State) (pa n v : Nat) : (storeDatum s pa n v).ds = s.ds := rfl
@[simp] theorem storeDatum_sr (s : State) (pa n v : Nat) : (storeDatum s pa n v).sr = s.sr := rfl
@[simp] theorem storeDatum_epcr (s : State) (pa n v : Nat) : (storeDatum s pa n v).epcr = s.epcr := rfl
@[simp] theorem storeDatum_esr (s : State) (pa n v : Nat) : (storeDatum s pa n v).esr = s.esr := rfl
@[simp] theorem storeDatum_eear (s : State) (pa n v : Nat) : (storeDatum s pa n v).eear = s.eear := rfl
@[simp] theorem storeDatum_evbar (s : State) (pa n v : Nat) : (storeDatum s pa n v).evbar = s.evbar := rfl
@[simp] theorem storeDatum_aecr (s : State) (pa n v : Nat) : (storeDatum s pa n v).aecr = s.aecr := rfl
@[simp] theorem storeDatum_aesr (s : State) (pa n v : Nat) : (storeDatum s pa n v).aesr = s.aesr := rfl
@[simp] theorem storeDatum_machi (s : State) (pa n v : Nat) : (storeDatum s pa n v).machi = s.machi := rfl
@[simp] theorem storeDatum_maclo (s : State) (pa n v : Nat) : (storeDatum s pa n v).maclo = s.maclo := rfl
@[simp] theorem storeDatum_fpcsr (s : State) (pa n v : Nat) : (storeDatum s pa n v).fpcsr = s.fpcsr := rfl
@[simp] theorem storeDatum_fpmaddhi (s : State) (pa n v : Nat) : (storeDatum s pa n v).fpmaddhi = s.fpmaddhi := rfl
@[simp] theorem storeDatum_fpmaddlo (s : State) (pa n v : Nat) : (storeDatum s pa n v).fpmaddlo = s.fpmaddlo := rfl
@[simp] theorem storeDatum_vmachi (s : State) (pa n v : Nat) : (storeDatum s pa n v).vmachi = s.vmachi := rfl
@[simp] theorem storeDatum_vmaclo (s : State) (pa n v : Nat) : (storeDatum s pa n v).vmaclo = s.vmaclo := rfl
@[simp] theorem storeDatum_resv (s : State) (pa n v : Nat) :
    (storeDatum s pa n v).resv = resvAfterWrite s.resv pa n := rfl
@[simp] theorem storeDatum_mem (s : State) (pa n v : Nat) :
    (storeDatum s pa n v).mem = writeBytes s.mem pa (bytesOf n v) := rfl
@[simp] theorem storeDatum_stale (s : State) (pa n v : Nat) :
    (storeDatum s pa n v).stale = if s.cfg.fetchStale then (List.range n).map (pa + ·) ++ s.stale else s.stale := rfl
@[simp] theorem storeDatum_inputs (s : State) (pa n v : Nat) : (storeDatum s pa n v).inputs = s.inputs := rfl
@[simp] theorem storeDatum_draws (s : State) (pa n v : Nat) : (storeDatum s pa n v).draws = s.draws := rfl

@[simp] theorem enter_cfg (s : State) (e : Exc) : (enter s e).cfg = s.cfg := rfl
@[simp] theorem enter_regs (s : State) (e : Exc) : (enter s e).regs = s.regs := rfl
@[simp] theorem enter_pc (s : State) (e : Exc) : (enter s e).pc = vectorAddr s e := rfl
@[simp] theorem enter_ppc (s : State) (e : Exc) : (enter s e).ppc = s.pc := rfl
@[simp] theorem enter_ds (s : State) (e : Exc) : (enter s e).ds = none := rfl
@[simp] theorem enter_sr (s : State) (e : Exc) : (enter s e).sr = entrySr s.sr s.ds.isSome := rfl
@[simp] theorem enter_epcr (s : State) (e : Exc) : (enter s e).epcr = resumeAddr s e := rfl
@[simp] theorem enter_esr (s : State) (e : Exc) : (enter s e).esr = s.sr := rfl
@[simp] theorem enter_eear (s : State) (e : Exc) : (enter s e).eear = eearAfter s e := rfl
@[simp] theorem enter_evbar (s : State) (e : Exc) : (enter s e).evbar = s.evbar := rfl
@[simp] theorem enter_aecr (s : State) (e : Exc) : (enter s e).aecr = s.aecr := rfl
@[simp] theorem enter_aesr (s : State) (e : Exc) : (enter s e).aesr = s.aesr := rfl
@[simp] theorem enter_machi (s : State) (e : Exc) : (enter s e).machi = s.machi := rfl
@[simp] theorem enter_maclo (s : State) (e : Exc) : (enter s e).maclo = s.maclo := rfl
@[simp] theorem enter_fpcsr (s : State) (e : Exc) : (enter s e).fpcsr = s.fpcsr := rfl
@[simp] theorem enter_fpmaddhi (s : State) (e : Exc) : (enter s e).fpmaddhi = s.fpmaddhi := rfl
@[simp] theorem enter_fpmaddlo (s : State) (e : Exc) : (enter s e).fpmaddlo = s.fpmaddlo := rfl
@[simp] theorem enter_vmachi (s : State) (e : Exc) : (enter s e).vmachi = s.vmachi := rfl
@[simp] theorem enter_vmaclo (s : State) (e : Exc) : (enter s e).vmaclo = s.vmaclo := rfl
@[simp] theorem enter_resv (s : State) (e : Exc) : (enter s e).resv = none := rfl
@[simp] theorem enter_mem (s : State) (e : Exc) : (enter s e).mem = s.mem := rfl
@[simp] theorem enter_stale (s : State) (e : Exc) : (enter s e).stale = s.stale := rfl
@[simp] theorem enter_inputs (s : State) (e : Exc) : (enter s e).inputs = s.inputs := rfl
@[simp] theorem enter_draws (s : State) (e : Exc) : (enter s e).draws = s.draws := rfl

@[simp] theorem syncFetch_cfg (s : State) : (syncFetch s).cfg = s.cfg := rfl
@[simp] theorem syncFetch_regs (s : State) : (syncFetch s).regs = s.regs := rfl
@[simp] theorem syncFetch_pc (s : State) : (syncFetch s).pc = s.pc := rfl
@[simp] theorem syncFetch_ppc (s : State) : (syncFetch s).ppc = s.ppc := rfl
@[simp] theorem syncFetch_ds (s : State) : (syncFetch s).ds = s.ds := rfl
@[simp] theorem syncFetch_sr (s : State) : (syncFetch s).sr = s.sr := rfl
@[simp] theorem syncFetch_epcr (s : State) : (syncFetch s).epcr = s.epcr := rfl
@[simp] theorem syncFetch_esr (s : State) : (syncFetch s).esr = s.esr := rfl
@[simp] theorem syncFetch_eear (s : State) : (syncFetch s).eear = s.eear := rfl
@[simp] theorem syncFetch_evbar (s : State) : (syncFetch s).evbar = s.evbar := rfl
@[simp] theorem syncFetch_aecr (s : State) : (syncFetch s).aecr = s.aecr := rfl
@[simp] theorem syncFetch_aesr (s : State) : (syncFetch s).aesr = s.aesr := rfl
@[simp] theorem syncFetch_machi (s : State) : (syncFetch s).machi = s.machi := rfl
@[simp] theorem syncFetch_maclo (s : State) : (syncFetch s).maclo = s.maclo := rfl
@[simp] theorem syncFetch_fpcsr (s : State) : (syncFetch s).fpcsr = s.fpcsr := rfl
@[simp] theorem syncFetch_fpmaddhi (s : State) : (syncFetch s).fpmaddhi = s.fpmaddhi := rfl
@[simp] theorem syncFetch_fpmaddlo (s : State) : (syncFetch s).fpmaddlo = s.fpmaddlo := rfl
@[simp] theorem syncFetch_vmachi (s : State) : (syncFetch s).vmachi = s.vmachi := rfl
@[simp] theorem syncFetch_vmaclo (s : State) : (syncFetch s).vmaclo = s.vmaclo := rfl
@[simp] theorem syncFetch_resv (s : State) : (syncFetch s).resv = s.resv := rfl
@[simp] theorem syncFetch_mem (s : State) : (syncFetch s).mem = s.mem := rfl
@[simp] theorem syncFetch_stale (s : State) : (syncFetch s).stale = [] := rfl
@[simp] theorem syncFetch_inputs (s : State) : (syncFetch s).inputs = s.inputs := rfl
@[simp] theorem syncFetch_draws (s : State) : (syncFetch s).draws = s.draws := rfl

@[simp] theorem takeInput_cfg (s : State) : (takeInput s).cfg = s.cfg := rfl
@[simp] theorem takeInput_regs (s : State) : (takeInput s).regs = s.regs := rfl
@[simp] theorem takeInput_pc (s : State) : (takeInput s).pc = s.pc := rfl
@[simp] theorem takeInput_ppc (s : State) : (takeInput s).ppc = s.ppc := rfl
@[simp] theorem takeInput_ds (s : State) : (takeInput s).ds = s.ds := rfl
@[simp] theorem takeInput_sr (s : State) : (takeInput s).sr = s.sr := rfl
@[simp] theorem takeInput_epcr (s : State) : (takeInput s).epcr = s.epcr := rfl
@[simp] theorem takeInput_esr (s : State) : (takeInput s).esr = s.esr := rfl
@[simp] theorem takeInput_eear (s : State) : (takeInput s).eear = s.eear := rfl
@[simp] theorem takeInput_evbar (s : State) : (takeInput s).evbar = s.evbar := rfl
@[simp] theorem takeInput_aecr (s : State) : (takeInput s).aecr = s.aecr := rfl
@[simp] theorem takeInput_aesr (s : State) : (takeInput s).aesr = s.aesr := rfl
@[simp] theorem takeInput_machi (s : State) : (takeInput s).machi = s.machi := rfl
@[simp] theorem takeInput_maclo (s : State) : (takeInput s).maclo = s.maclo := rfl
@[simp] theorem takeInput_fpcsr (s : State) : (takeInput s).fpcsr = s.fpcsr := rfl
@[simp] theorem takeInput_fpmaddhi (s : State) : (takeInput s).fpmaddhi = s.fpmaddhi := rfl
@[simp] theorem takeInput_fpmaddlo (s : State) : (takeInput s).fpmaddlo = s.fpmaddlo := rfl
@[simp] theorem takeInput_vmachi (s : State) : (takeInput s).vmachi = s.vmachi := rfl
@[simp] theorem takeInput_vmaclo (s : State) : (takeInput s).vmaclo = s.vmaclo := rfl
@[simp] theorem takeInput_resv (s : State) :
    (takeInput s).resv = if (nextInput s).loseResv then none else resvAfterCells s.resv (nextInput s).writes := rfl
@[simp] theorem takeInput_mem (s : State) : (takeInput s).mem = writeCells s.mem (nextInput s).writes := rfl
@[simp] theorem takeInput_stale (s : State) : (takeInput s).stale = s.stale := rfl
@[simp] theorem takeInput_inputs (s : State) : (takeInput s).inputs = s.inputs.tail := rfl
@[simp] theorem takeInput_draws (s : State) : (takeInput s).draws = s.draws := rfl

@[simp] theorem resetWith_cfg (c : Config) : (resetWith c).cfg = c := rfl
@[simp] theorem resetWith_regs (c : Config) : (resetWith c).regs = Vector.replicate 32 unspecifiedReset := rfl
@[simp] theorem resetWith_pc (c : Config) : (resetWith c).pc = resetPc c := rfl
@[simp] theorem resetWith_ppc (c : Config) : (resetWith c).ppc = unspecifiedReset := rfl
@[simp] theorem resetWith_ds (c : Config) : (resetWith c).ds = none := rfl
@[simp] theorem resetWith_sr (c : Config) : (resetWith c).sr = resetSr c := rfl
@[simp] theorem resetWith_epcr (c : Config) : (resetWith c).epcr = unspecifiedReset := rfl
@[simp] theorem resetWith_esr (c : Config) : (resetWith c).esr = unspecifiedReset := rfl
@[simp] theorem resetWith_eear (c : Config) : (resetWith c).eear = unspecifiedReset := rfl
@[simp] theorem resetWith_evbar (c : Config) : (resetWith c).evbar = resetEvbar c := rfl
@[simp] theorem resetWith_aecr (c : Config) : (resetWith c).aecr = 0#32 := rfl
@[simp] theorem resetWith_aesr (c : Config) : (resetWith c).aesr = 0#32 := rfl
@[simp] theorem resetWith_machi (c : Config) : (resetWith c).machi = unspecifiedReset := rfl
@[simp] theorem resetWith_maclo (c : Config) : (resetWith c).maclo = unspecifiedReset := rfl
@[simp] theorem resetWith_fpcsr (c : Config) : (resetWith c).fpcsr = 0#32 := rfl
@[simp] theorem resetWith_fpmaddhi (c : Config) : (resetWith c).fpmaddhi = unspecifiedReset := rfl
@[simp] theorem resetWith_fpmaddlo (c : Config) : (resetWith c).fpmaddlo = unspecifiedReset := rfl
@[simp] theorem resetWith_vmachi (c : Config) : (resetWith c).vmachi = unspecifiedReset := rfl
@[simp] theorem resetWith_vmaclo (c : Config) : (resetWith c).vmaclo = unspecifiedReset := rfl
@[simp] theorem resetWith_resv (c : Config) : (resetWith c).resv = none := rfl
@[simp] theorem resetWith_mem (c : Config) : (resetWith c).mem = [] := rfl
@[simp] theorem resetWith_stale (c : Config) : (resetWith c).stale = [] := rfl
@[simp] theorem resetWith_inputs (c : Config) : (resetWith c).inputs = [] := rfl
@[simp] theorem resetWith_draws (c : Config) : (resetWith c).draws = 0 := rfl

@[simp] theorem warmReset_cfg (s : State) : (warmReset s).cfg = s.cfg := by simp only [warmReset, resetWith]
@[simp] theorem warmReset_regs (s : State) : (warmReset s).regs = Vector.ofFn fun i => s.resetFree i := rfl
@[simp] theorem warmReset_pc (s : State) : (warmReset s).pc = resetPc s.cfg := rfl
@[simp] theorem warmReset_ppc (s : State) : (warmReset s).ppc = s.pc := rfl
@[simp] theorem warmReset_ds (s : State) : (warmReset s).ds = none := rfl
@[simp] theorem warmReset_sr (s : State) : (warmReset s).sr = resetSr s.cfg := rfl
@[simp] theorem warmReset_epcr (s : State) : (warmReset s).epcr = s.resetFree 32 := rfl
@[simp] theorem warmReset_esr (s : State) : (warmReset s).esr = (s.resetFree 33).setWidth 32 := rfl
@[simp] theorem warmReset_eear (s : State) : (warmReset s).eear = s.resetFree 34 := rfl
@[simp] theorem warmReset_evbar (s : State) : (warmReset s).evbar = resetEvbar s.cfg := rfl
@[simp] theorem warmReset_aecr (s : State) : (warmReset s).aecr = 0#32 := rfl
@[simp] theorem warmReset_aesr (s : State) : (warmReset s).aesr = 0#32 := rfl
@[simp] theorem warmReset_machi (s : State) : (warmReset s).machi = (s.resetFree 35).setWidth 32 := rfl
@[simp] theorem warmReset_maclo (s : State) : (warmReset s).maclo = (s.resetFree 36).setWidth 32 := rfl
@[simp] theorem warmReset_fpcsr (s : State) : (warmReset s).fpcsr = 0#32 := rfl
@[simp] theorem warmReset_fpmaddhi (s : State) : (warmReset s).fpmaddhi = (s.resetFree 37).setWidth 32 := rfl
@[simp] theorem warmReset_fpmaddlo (s : State) : (warmReset s).fpmaddlo = (s.resetFree 38).setWidth 32 := rfl
@[simp] theorem warmReset_vmachi (s : State) : (warmReset s).vmachi = Config.freeWord (s.draws + 39) := rfl
@[simp] theorem warmReset_vmaclo (s : State) : (warmReset s).vmaclo = Config.freeWord (s.draws + 40) := rfl
@[simp] theorem warmReset_resv (s : State) : (warmReset s).resv = none := rfl
@[simp] theorem warmReset_mem (s : State) : (warmReset s).mem = s.mem := by simp only [warmReset, resetWith]
@[simp] theorem warmReset_stale (s : State) : (warmReset s).stale = s.stale := by simp only [warmReset, resetWith]
@[simp] theorem warmReset_inputs (s : State) : (warmReset s).inputs = s.inputs := by simp only [warmReset, resetWith]
@[simp] theorem warmReset_draws (s : State) : (warmReset s).draws = s.draws + 41 := rfl

/-! A taken jump changes the pc, PPC and, with delay slots, the pending target. -/

@[simp] theorem State.takeJump_cfg (s : State) (a : BitVec 64) : (s.takeJump a).cfg = s.cfg := by
  unfold State.takeJump; split <;> rfl
@[simp] theorem State.takeJump_regs (s : State) (a : BitVec 64) : (s.takeJump a).regs = s.regs := by
  unfold State.takeJump; split <;> rfl
@[simp] theorem State.takeJump_ppc (s : State) (a : BitVec 64) : (s.takeJump a).ppc = s.pc := by
  unfold State.takeJump; split <;> rfl
@[simp] theorem State.takeJump_sr (s : State) (a : BitVec 64) : (s.takeJump a).sr = s.sr := by
  unfold State.takeJump; split <;> rfl
@[simp] theorem State.takeJump_epcr (s : State) (a : BitVec 64) : (s.takeJump a).epcr = s.epcr := by
  unfold State.takeJump; split <;> rfl
@[simp] theorem State.takeJump_esr (s : State) (a : BitVec 64) : (s.takeJump a).esr = s.esr := by
  unfold State.takeJump; split <;> rfl
@[simp] theorem State.takeJump_eear (s : State) (a : BitVec 64) : (s.takeJump a).eear = s.eear := by
  unfold State.takeJump; split <;> rfl
@[simp] theorem State.takeJump_evbar (s : State) (a : BitVec 64) : (s.takeJump a).evbar = s.evbar := by
  unfold State.takeJump; split <;> rfl
@[simp] theorem State.takeJump_aecr (s : State) (a : BitVec 64) : (s.takeJump a).aecr = s.aecr := by
  unfold State.takeJump; split <;> rfl
@[simp] theorem State.takeJump_aesr (s : State) (a : BitVec 64) : (s.takeJump a).aesr = s.aesr := by
  unfold State.takeJump; split <;> rfl
@[simp] theorem State.takeJump_machi (s : State) (a : BitVec 64) : (s.takeJump a).machi = s.machi := by
  unfold State.takeJump; split <;> rfl
@[simp] theorem State.takeJump_maclo (s : State) (a : BitVec 64) : (s.takeJump a).maclo = s.maclo := by
  unfold State.takeJump; split <;> rfl
@[simp] theorem State.takeJump_fpcsr (s : State) (a : BitVec 64) : (s.takeJump a).fpcsr = s.fpcsr := by
  unfold State.takeJump; split <;> rfl
@[simp] theorem State.takeJump_fpmaddhi (s : State) (a : BitVec 64) : (s.takeJump a).fpmaddhi = s.fpmaddhi := by
  unfold State.takeJump; split <;> rfl
@[simp] theorem State.takeJump_fpmaddlo (s : State) (a : BitVec 64) : (s.takeJump a).fpmaddlo = s.fpmaddlo := by
  unfold State.takeJump; split <;> rfl
@[simp] theorem State.takeJump_vmachi (s : State) (a : BitVec 64) : (s.takeJump a).vmachi = s.vmachi := by
  unfold State.takeJump; split <;> rfl
@[simp] theorem State.takeJump_vmaclo (s : State) (a : BitVec 64) : (s.takeJump a).vmaclo = s.vmaclo := by
  unfold State.takeJump; split <;> rfl
@[simp] theorem State.takeJump_resv (s : State) (a : BitVec 64) : (s.takeJump a).resv = s.resv := by
  unfold State.takeJump; split <;> rfl
@[simp] theorem State.takeJump_mem (s : State) (a : BitVec 64) : (s.takeJump a).mem = s.mem := by
  unfold State.takeJump; split <;> rfl
@[simp] theorem State.takeJump_stale (s : State) (a : BitVec 64) : (s.takeJump a).stale = s.stale := by
  unfold State.takeJump; split <;> rfl
@[simp] theorem State.takeJump_inputs (s : State) (a : BitVec 64) : (s.takeJump a).inputs = s.inputs := by
  unfold State.takeJump; split <;> rfl
@[simp] theorem State.takeJump_draws (s : State) (a : BitVec 64) : (s.takeJump a).draws = s.draws := by
  unfold State.takeJump; split <;> rfl

theorem State.takeJump_pc (s : State) (a : BitVec 64) :
    (s.takeJump a).pc = if s.cfg.nd then a else s.trunc (s.pc + 4#64) := by
  unfold State.takeJump; split <;> rfl

theorem State.takeJump_ds (s : State) (a : BitVec 64) :
    (s.takeJump a).ds = if s.cfg.nd then s.ds else some a := by
  unfold State.takeJump; split <;> rfl

/-! Flags are bits of SR; the width follows the configuration. -/

@[simp] theorem State.setF_eq (s : State) (b : Bool) : s.setF b = s.setSrBit srF b := rfl
@[simp] theorem State.setCY_eq (s : State) (b : Bool) : s.setCY b = s.setSrBit srCY b := rfl
@[simp] theorem State.setOV_eq (s : State) (b : Bool) : s.setOV b = s.setSrBit srOV b := rfl
theorem State.flagF_eq (s : State) : s.flagF = s.srBit srF := rfl
theorem State.flagCY_eq (s : State) : s.flagCY = s.srBit srCY := rfl
theorem State.flagOV_eq (s : State) : s.flagOV = s.srBit srOV := rfl
theorem State.supervisor_eq (s : State) : s.supervisor = s.srBit srSM := rfl
theorem State.width_eq (s : State) : s.width = s.cfg.xlen.bits := rfl

end Sys2Proof.Machine
end

