-- ==== Sys2Proof/Laws/Registers.lean ====
section
/-! SUPPORT. What the operations on registers, on the bits of SR and on the pc do: one lemma for each. -/

namespace Sys2Proof.Machine

theorem xlen_bits_cases (x : XLen) : x.bits = 32 ∨ x.bits = 64 := by cases x <;> simp [XLen.bits]

theorem State.width_cases (s : State) : s.width = 32 ∨ s.width = 64 := xlen_bits_cases s.cfg.xlen

theorem State.width_le (s : State) : s.width ≤ 64 := by rcases s.width_cases with h | h <;> omega

theorem State.width_pos (s : State) : 0 < s.width := by rcases s.width_cases with h | h <;> omega

/-! ### Bits -/

theorem setBit_getLsbD {n : Nat} (v : BitVec n) (i : Nat) (b : Bool) (j : Nat) :
    (setBit v i b).getLsbD j = if j = i ∧ i < n then b else v.getLsbD j := by
  unfold setBit
  cases b <;> simp [BitVec.getLsbD_twoPow] <;> grind

@[simp] theorem State.srBit_setSrBit (s : State) (i j : Nat) (b : Bool) :
    (s.setSrBit i b).srBit j = if j = i ∧ i < 32 then b else s.srBit j := by
  simp [State.srBit, setBit_getLsbD]

theorem State.srBit_of_sr {s t : State} (h : t.sr = s.sr) (i : Nat) : t.srBit i = s.srBit i := by
  simp [State.srBit, h]

/-! ### General registers -/

theorem State.uval_eq (s : State) (r : RegNum) : s.uval r = (s.regs.get r.toFin).toNat % 2 ^ s.width := by
  simp [State.uval, State.reg]

theorem State.uval_lt (s : State) (r : RegNum) : s.uval r < 2 ^ s.width := by
  simp only [State.uval]; exact (s.reg r).isLt

theorem State.sval_eq (s : State) (r : RegNum) : s.sval r = (s.uval r : Int).bmod (2 ^ s.width) := by
  simp [State.sval, State.uval, BitVec.toInt_eq_toNat_bmod]

theorem State.setReg_get (s : State) (d r : RegNum) {n : Nat} (v : BitVec n) :
    (s.setReg d v).regs.get r.toFin = if r = d then v.setWidth 64 else s.regs.get r.toFin := by
  simp only [State.setReg_regs, Vector.get_eq_getElem, Vector.getElem_set]
  have key : d.toNat = r.toFin.val ↔ r = d := ⟨fun e => (BitVec.eq_of_toNat_eq e).symm, fun e => by rw [e]; rfl⟩
  simp only [key]

theorem State.uval_setReg (s : State) (d r : RegNum) {n : Nat} (v : BitVec n) :
    (s.setReg d v).uval r = if r = d then v.toNat % 2 ^ s.width else s.uval r := by
  rw [State.uval_eq, State.setReg_get, State.uval_eq]
  have hw := s.width_le
  have hw' : (s.setReg d v).width = s.width := rfl
  split
  · simp only [hw', BitVec.toNat_setWidth]
    exact Nat.mod_mod_of_dvd _ (Nat.pow_dvd_pow 2 hw)
  · rfl

theorem State.uval_congr {s t : State} (hc : t.cfg = s.cfg) (hr : t.regs = s.regs) (r : RegNum) :
    t.uval r = s.uval r := by
  simp [State.uval_eq, State.width_eq, hc, hr]

/-- A value of the register's own width survives being written and read. -/
theorem State.uval_setReg_same (s : State) (d : RegNum) (v : BitVec s.width) : (s.setReg d v).uval d = v.toNat := by
  rw [State.uval_setReg, if_pos rfl, Nat.mod_eq_of_lt v.isLt]

/-! ### The pc -/

theorem State.trunc_toNat (s : State) (v : BitVec 64) : (s.trunc v).toNat = v.toNat % 2 ^ s.width := by
  simp only [State.trunc, BitVec.toNat_setWidth]
  exact Nat.mod_eq_of_lt (lt_of_lt_of_le (Nat.mod_lt _ (Nat.two_pow_pos _)) (Nat.pow_le_pow_right (by norm_num) s.width_le))

theorem State.trunc_add_toNat (s : State) (v w : BitVec 64) :
    (s.trunc (v + w)).toNat = (v.toNat + w.toNat) % 2 ^ s.width := by
  rw [State.trunc_toNat, BitVec.toNat_add, Nat.mod_mod_of_dvd _ (Nat.pow_dvd_pow 2 s.width_le)]

theorem State.nextPc_of_none {s : State} (h : s.ds = none) : s.nextPc.toNat = (s.pc.toNat + 4) % 2 ^ s.width := by
  simp only [State.nextPc, h, State.trunc_add_toNat]; rfl

theorem State.nextPc_of_some {s : State} {x : BitVec 64} (h : s.ds = some x) : s.nextPc = x := by
  simp only [State.nextPc, h]

/-- What `State.advance` does, as R27 says it. -/
theorem advanced_advance {s u : State} (hc : u.cfg = s.cfg) (hp : u.pc = s.pc) (hd : u.ds = s.ds) :
    Advanced s u.advance := by
  refine ⟨rfl, by simp [hp], fun x hx => ?_, fun hn => ?_⟩
  · simp [State.nextPc_of_some (hd.trans hx)]
  · rw [State.advance_pc, State.nextPc_of_none (hd.trans hn), hp, State.width_eq, State.width_eq, hc]

end Sys2Proof.Machine
end

