-- ==== Sys2Proof/Laws/Frame.lean ====
section
/-! SUPPORT. Frames compose: each update of the state extends a frame that lists the part it writes. -/

namespace Sys2Proof.Machine

variable {w w' : List Part} {s t u : State}

theorem Frame.refl (w : List Part) (s : State) : Frame w s s := by simp [Frame]

theorem Frame.mono (h : Frame w s t) (hw : ∀ p ∈ w, p ∈ w') : Frame w' s t := by
  obtain ⟨h1, h2, h3, h4, h5, h6, h7, h8, h9, h10, h11, h12, h13, h14, h15, h16, h17, h18, h19⟩ := h
  exact ⟨h1, h2, fun r hr => h3 r fun k => hr (hw _ k), fun i hi => h4 i fun k => hi (hw _ k),
    fun n => h5 fun k => n (hw _ k), fun n => h6 fun k => n (hw _ k), fun n => h7 fun k => n (hw _ k),
    fun n => h8 fun k => n (hw _ k), fun n => h9 fun k => n (hw _ k), fun n => h10 fun k => n (hw _ k),
    fun n => h11 fun k => n (hw _ k), fun n => h12 fun k => n (hw _ k), fun n => h13 fun k => n (hw _ k),
    fun n => h14 fun k => n (hw _ k), fun n => h15 fun k => n (hw _ k), fun n => h16 fun k => n (hw _ k),
    fun n => h17 fun k => n (hw _ k), fun n => h18 fun k => n (hw _ k), fun n => h19 fun k => n (hw _ k)⟩

theorem Frame.trans (h : Frame w s t) (k : Frame w t u) : Frame w s u := by
  obtain ⟨h1, h2, h3, h4, h5, h6, h7, h8, h9, h10, h11, h12, h13, h14, h15, h16, h17, h18, h19⟩ := h
  obtain ⟨k1, k2, k3, k4, k5, k6, k7, k8, k9, k10, k11, k12, k13, k14, k15, k16, k17, k18, k19⟩ := k
  exact ⟨k1.trans h1, k2.trans h2, fun r hr => (k3 r hr).trans (h3 r hr), fun i hi => (k4 i hi).trans (h4 i hi),
    fun n => (k5 n).trans (h5 n), fun n => (k6 n).trans (h6 n), fun n => (k7 n).trans (h7 n),
    fun n => (k8 n).trans (h8 n), fun n => (k9 n).trans (h9 n), fun n => (k10 n).trans (h10 n),
    fun n => (k11 n).trans (h11 n), fun n => (k12 n).trans (h12 n), fun n => (k13 n).trans (h13 n),
    fun n => ⟨(k14 n).1.trans (h14 n).1, (k14 n).2.trans (h14 n).2⟩,
    fun n => ⟨(k15 n).1.trans (h15 n).1, (k15 n).2.trans (h15 n).2⟩, fun n => (k16 n).trans (h16 n),
    fun n a => (k17 n a).trans (h17 n a), fun n => (k18 n).trans (h18 n), fun n => (k19 n).trans (h19 n)⟩

/-- A state that differs from `t` in the pc, PPC and the pending target alone is in every frame `t` is in. -/
theorem Frame.pcOnly (h : Frame w s t) (a b : BitVec 64) (d : Option (BitVec 64)) :
    Frame w s { t with pc := a, ppc := b, ds := d } := h

theorem Frame.advance (h : Frame w s t) : Frame w s t.advance := h

theorem Frame.goto (h : Frame w s t) (a : BitVec 64) : Frame w s (t.goto a) := h

theorem Frame.takeJump (h : Frame w s t) (a : BitVec 64) : Frame w s (t.takeJump a) := by
  unfold State.takeJump; split <;> exact h

theorem Frame.setReg (h : Frame w s t) (d : RegNum) {n : Nat} (v : BitVec n) (hw : .reg d ∈ w) :
    Frame w s (t.setReg d v) := by
  obtain ⟨h1, h2, h3, h⟩ := h
  exact ⟨h1, h2, fun r hr => by rw [State.setReg_get, if_neg (by rintro rfl; exact hr hw)]; exact h3 r hr, h⟩

theorem Frame.setSrBit (h : Frame w s t) (i : Nat) (b : Bool) (hw : .sr i ∈ w) : Frame w s (t.setSrBit i b) := by
  obtain ⟨h1, h2, h3, h4, h⟩ := h
  refine ⟨h1, h2, h3, fun j hj => ?_, h⟩
  rw [State.srBit_setSrBit, if_neg (by rintro ⟨rfl, -⟩; exact hj hw)]
  exact h4 j hj

theorem Frame.setSr (h : Frame w s t) (v : BitVec 32) (hw : ∀ i < 32, Part.sr i ∈ w) : Frame w s { t with sr := v } := by
  obtain ⟨h1, h2, h3, h4, h⟩ := h
  refine ⟨h1, h2, h3, fun j hj => ?_, h⟩
  have : ¬ j < 32 := fun k => hj (hw j k)
  simp only [State.srBit]
  rw [BitVec.getLsbD_of_ge _ _ (by omega), BitVec.getLsbD_of_ge _ _ (by omega)]

theorem Frame.spend (h : Frame w s t) (hw : .draws ∈ w) : Frame w s t.spend := by
  obtain ⟨h1, h2, h3, h4, h5, h6, h7, h8, h9, h10, h11, h12, h13, h14, h15, h16, h17, h18, -⟩ := h
  exact ⟨h1, h2, h3, h4, h5, h6, h7, h8, h9, h10, h11, h12, h13, h14, h15, h16, h17, h18, fun n => absurd hw n⟩

theorem Frame.setAcc (h : Frame w s t) (v : BitVec 64) (hw : .machi ∈ w) (hw' : .maclo ∈ w) : Frame w s (t.setAcc v) := by
  obtain ⟨h1, h2, h3, h4, h5, h6, h7, h8, h9, h10, -, -, h⟩ := h
  exact ⟨h1, h2, h3, h4, h5, h6, h7, h8, h9, h10, fun n => absurd hw n, fun n => absurd hw' n, h⟩

theorem Frame.setAesr (h : Frame w s t) (v : BitVec 32) (hw : .aesr ∈ w) : Frame w s { t with aesr := v } := by
  obtain ⟨h1, h2, h3, h4, h5, h6, h7, h8, h9, -, h⟩ := h
  exact ⟨h1, h2, h3, h4, h5, h6, h7, h8, h9, fun n => absurd hw n, h⟩

theorem Frame.setFpcsr (h : Frame w s t) (v : BitVec 32) (hw : .fpcsr ∈ w) : Frame w s { t with fpcsr := v } := by
  obtain ⟨h1, h2, h3, h4, h5, h6, h7, h8, h9, h10, h11, h12, -, h⟩ := h
  exact ⟨h1, h2, h3, h4, h5, h6, h7, h8, h9, h10, h11, h12, fun n => absurd hw n, h⟩

theorem Frame.setResv (h : Frame w s t) (v : Option Nat) (hw : .resv ∈ w) : Frame w s { t with resv := v } := by
  obtain ⟨h1, h2, h3, h4, h5, h6, h7, h8, h9, h10, h11, h12, h13, h14, h15, -, h⟩ := h
  exact ⟨h1, h2, h3, h4, h5, h6, h7, h8, h9, h10, h11, h12, h13, h14, h15, fun n => absurd hw n, h⟩

theorem Frame.syncFetch (h : Frame w s t) (hw : .stale ∈ w) : Frame w s (syncFetch t) := by
  obtain ⟨h1, h2, h3, h4, h5, h6, h7, h8, h9, h10, h11, h12, h13, h14, h15, h16, h17, -, h⟩ := h
  exact ⟨h1, h2, h3, h4, h5, h6, h7, h8, h9, h10, h11, h12, h13, h14, h15, h16, h17, fun n => absurd hw n, h⟩

theorem Frame.storeDatum (h : Frame w s t) (pa n v : Nat) (hm : .mem ∈ w) (hr : .resv ∈ w) (hs : .stale ∈ w) :
    Frame w s (storeDatum t pa n v) := by
  obtain ⟨h1, h2, h3, h4, h5, h6, h7, h8, h9, h10, h11, h12, h13, h14, h15, -, -, -, h⟩ := h
  exact ⟨h1, h2, h3, h4, h5, h6, h7, h8, h9, h10, h11, h12, h13, h14, h15, fun n => absurd hr n, fun n => absurd hm n,
    fun n => absurd hs n, h⟩

/-! ### Completing and raising -/

/-- An instruction that ends in `finish u` completes, `u` being where its effect has been written. -/
theorem completes_finish {i : Instr} {post : State → Prop} (he : exec i s = finish u) (hf : Frame w s u)
    (hp : u.pc = s.pc) (hd : u.ds = s.ds) (hpost : post u.advance) : Completes i s w post :=
  ⟨u.advance, he, advanced_advance hf.1 hp hd, hf.advance, hpost⟩

/-- The resume address, as a number (R508). -/
theorem resumeAddr_toNat (s : State) (e : Exc) : (resumeAddr s e).toNat = resumeAt s (excEntry s.cfg e).resume := by
  unfold resumeAddr resumeAt wrap
  cases s.ds with
  | some x =>
    simp only [Option.isSome_some, if_true, State.trunc_toNat]
    rcases s.width_cases with h | h <;> rw [h] <;> bv_omega
  | none =>
    simp only [Option.isSome_none, Bool.false_eq_true, if_false]
    cases (excEntry s.cfg e).resume
    · simp only [if_true, State.trunc_toNat]
      rcases s.width_cases with h | h <;> rw [h] <;> bv_omega
    · simp only [reduceCtorEq, if_false, State.trunc_toNat]
      rcases s.width_cases with h | h <;> rw [h] <;> omega

theorem vectorAddr_toNat (s : State) (e : Exc) : (vectorAddr s e).toNat = vectorOf s (excEntry s.cfg e).offset.toNat := by
  have key : (0xFFFFE000#32).toNat = 0xFFFFE000 := rfl
  unfold vectorAddr vectorOf
  rw [BitVec.toNat_setWidth, Nat.mod_eq_of_lt (lt_of_lt_of_le (BitVec.isLt _) (by norm_num))]
  simp only [BitVec.toNat_or]
  congr 1
  congr 1
  · split <;> rfl
  · split
    · rw [BitVec.toNat_and, key]
    · rfl

theorem entrySr_bit (v : BitVec 32) (b : Bool) (j : Nat) :
    (entrySr v b).getLsbD j =
      if j = srDSX then b else if j = srSM then true
      else if j = srIEE ∨ j = srTEE ∨ j = srDME ∨ j = srIME ∨ j = srOVE then false else v.getLsbD j := by
  unfold entrySr
  simp only [setBit_getLsbD, srSM, srIEE, srTEE, srDME, srIME, srOVE, srDSX]
  grind

/-- Exception entry, as R507 says it. -/
theorem enters_enter (u : State) (e : Exc) : Enters u (enter u e) (excEntry u.cfg e) := by
  refine ⟨?_, rfl, resumeAddr_toNat u e, vectorAddr_toNat u e, rfl, rfl, rfl, ?_⟩
  · refine ⟨rfl, rfl, fun r _ => rfl, fun i hi => ?_, ?_⟩
    · simp only [List.mem_cons, Part.sr.injEq, reduceCtorEq, List.not_mem_nil, or_false, not_or] at hi
      simp only [State.srBit, enter_sr, entrySr_bit]
      grind
    · simp
  · simp only [State.srBit, enter_sr, entrySr_bit, srSM, srIEE, srTEE, srDME, srIME, srOVE, srDSX]
    simp

/-- Under the reading that takes exceptions, raising is entering (R517). -/
theorem raise_taken {u : State} (h : u.cfg.excReading = .taken) (e : Exc) : raise u e = .next (enter u e) := by
  simp only [raise, h]

/-- Under the fault reading, raising ends the run (R517). -/
theorem raise_fault {u : State} (h : u.cfg.excReading = .fault) (e : Exc) : raise u e = .fault (.raised e u.pc) := by
  simp only [raise, h]

/-- Whatever answers a next state by raising has entered (R517). -/
theorem raise_next {u t : State} {e : Exc} (h : raise u e = .next t) : t = enter u e := by
  unfold raise at h
  split at h
  · cases h; rfl
  · cases h

/-- All that raising can do (R12, R517). -/
theorem raisedIn_raise (u : State) (e : Exc) : RaisedIn u e (excEntry u.cfg e) (eearAfter u e) (raise u e) :=
  ⟨fun h => ⟨_, raise_taken h e, enters_enter u e, rfl⟩, fun h => raise_fault h e⟩

end Sys2Proof.Machine
end

