-- ==== Sys2Proof/Laws/Exceptions.lean ====
section
/-! SUPPORT. Once each, everything the shared endings of an instruction can do: raising, reporting an
arithmetic event, checking an access, checking a privilege. -/

namespace Sys2Proof.Machine

variable {w : List Part} {s t u : State} {i : Instr}

/-- Raising IllegalInstruction. -/
theorem raisesIllegal_of_exec (h : exec i s = raise s .illegalInstruction) : RaisesIllegal i s := by
  rw [RaisesIllegal, h]; exact raisedIn_raise s .illegalInstruction

theorem whenPresent_true {p : Bool} (h : p = true) (k : Outcome) : whenPresent p s k = k := by simp [whenPresent, h]

theorem whenPresent_false {p : Bool} (h : p = false) (k : Outcome) :
    whenPresent p s k = raise s .illegalInstruction := by simp [whenPresent, h]

/-- All that the custom words of a unit can do, before `CustomSem` is asked (R111, R113, R115). -/
theorem unitCustom_cases (mnemonic : String) (reserved : InsnWord) (present : Bool) (x : InsnWord) (s : State) :
    (x &&& reserved ≠ 0#32 ∧ unitCustom mnemonic reserved present x s = .refused (.reservedBits mnemonic)) ∨
    (x &&& reserved = 0#32 ∧ present = false ∧ unitCustom mnemonic reserved present x s = raise s .illegalInstruction) ∨
    (x &&& reserved = 0#32 ∧ present = true ∧ unitCustom mnemonic reserved present x s = customOp x s) := by
  by_cases h : x &&& reserved = 0#32 <;> cases present <;> simp [unitCustom, whenUnreserved, whenPresent, h]

/-- The case of `CustomSem` that decides: the first that matches (R114). -/
theorem customEffect_append {before after : List CustomRule} {r : CustomRule} {x : InsnWord}
    (hb : ∀ q ∈ before, x &&& q.mask ≠ q.pattern) (hr : x &&& r.mask = r.pattern) :
    customEffect (before ++ r :: after) x = r.effect := by
  have h : before.find? (fun q => x &&& q.mask == q.pattern) = none :=
    List.find?_eq_none.2 fun q hq => by simpa using hb q hq
  simp [customEffect, List.find?_append, h, hr]

theorem customEffect_none {rules : List CustomRule} {x : InsnWord} (h : ∀ q ∈ rules, x &&& q.mask ≠ q.pattern) :
    customEffect rules x = .refuse := by
  have h' : rules.find? (fun q => x &&& q.mask == q.pattern) = none :=
    List.find?_eq_none.2 fun q hq => by simpa using h q hq
  simp [customEffect, h']

theorem outsideSlot_none (h : s.ds = none) (k : Outcome) : outsideSlot s k = k := by simp [outsideSlot, h]

theorem outsideSlot_some (h : s.ds ≠ none) (k : Outcome) : outsideSlot s k = .refused .jumpInDelaySlot := by
  simp [outsideSlot, Option.isSome_iff_ne_none, h]

theorem privileged_supervisor (h : s.supervisor = true) (a k : Outcome) : privileged s a k = k := by
  simp [privileged, h]

/-- The control bits tested by R503, as `RangeEnabled` says them. -/
theorem rangeEnabled_iff (s : State) (k : Nat) :
    RangeEnabled s k ↔ s.srBit srOVE = true ∧ (if s.cfg.aecsrp then s.aecr.getLsbD k else s.cfg.aecrAbsentMask.getLsbD k) = true :=
  Iff.rfl

theorem rangeControl_bit (s : State) (k : Nat) (hk : k < 7) :
    (rangeControl s).getLsbD k = if s.cfg.aecsrp then s.aecr.getLsbD k else s.cfg.aecrAbsentMask.getLsbD k := by
  unfold rangeControl; split <;> simp [hk]

theorem ne_zero_iff_bit {n : Nat} (v : BitVec n) : v ≠ 0#n ↔ ∃ k, v.getLsbD k = true := by
  constructor
  · intro h
    by_contra hc
    push Not at hc
    exact h (BitVec.eq_of_getLsbD_eq fun k _ => by simpa using hc k)
  · rintro ⟨k, hk⟩ rfl; simp at hk

/-- What an instruction that ends in `arithEvent u ev` does (R134, R503): `u` is where its result and its flags
have been written, `evs` are its events with the conditions under which they happen. -/
theorem arithOutcome_of_exec {ev : BitVec 7} {evs : List (Nat × Prop)} {post : State → Prop}
    (he : exec i s = arithEvent u ev) (hf : Frame w s u) (hp : u.pc = s.pc) (hd : u.ds = s.ds)
    (haesr : u.aesr = s.aesr) (haecr : u.aecr = s.aecr) (hove : u.srBit srOVE = s.srBit srOVE) (heear : u.eear = s.eear)
    (hev : ∀ k, ev.getLsbD k = true ↔ ∃ e ∈ evs, e.1 = k ∧ e.2)
    (hpost : ∀ t : State, t.cfg = u.cfg → t.regs = u.regs → t.sr = u.sr → t.machi = u.machi → t.maclo = u.maclo → post t) :
    ArithOutcome i s w evs post := by
  have hbit : ∀ k, (ev &&& rangeControl u).getLsbD k = true ↔
      (∃ e ∈ evs, e.1 = k ∧ e.2) ∧ (if s.cfg.aecsrp then s.aecr.getLsbD k else s.cfg.aecrAbsentMask.getLsbD k) = true := by
    intro k
    by_cases hk : k < 7
    · rw [BitVec.getLsbD_and, rangeControl_bit u k hk, Bool.and_eq_true, hev, haecr, hf.1]
    · constructor
      · intro h; rw [BitVec.getLsbD_of_ge _ _ (by omega)] at h; cases h
      · rintro ⟨h, -⟩; rw [← hev, BitVec.getLsbD_of_ge _ _ (by omega)] at h; cases h
  have htaken : RangeTaken s evs ↔ (u.srBit srOVE && (ev &&& rangeControl u) != 0#7) = true := by
    rw [Bool.and_eq_true, bne_iff_ne, ne_zero_iff_bit, hove]
    constructor
    · rintro ⟨e, hm, he2, h1, h2⟩
      exact ⟨h1, e.1, (hbit _).2 ⟨⟨e, hm, rfl, he2⟩, h2⟩⟩
    · rintro ⟨h1, k, hk⟩
      obtain ⟨⟨e, hm, rfl, he2⟩, h2⟩ := (hbit k).1 hk
      exact ⟨e, hm, he2, h1, h2⟩
  constructor
  · intro hn
    rw [htaken] at hn
    have he' : exec i s = finish u := by rw [he]; simp only [arithEvent, if_neg hn]
    exact completes_finish he' hf hp hd (hpost _ rfl rfl rfl rfl rfl)
  · intro ht
    have hove' : s.srBit srOVE = true := by obtain ⟨e, _, _, h, _⟩ := ht; exact h
    rw [htaken] at ht
    have he' : exec i s = raise (if u.cfg.aecsrp then { u with aesr := u.aesr ||| (ev &&& rangeControl u).setWidth 32 } else u) .range := by
      rw [he]; simp only [arithEvent, if_pos ht]
    have hrec : ∀ k, ((ev &&& rangeControl u).setWidth 32).getLsbD k = true ↔
        (∃ e ∈ evs, e.1 = k ∧ e.2) ∧ (if s.cfg.aecsrp then s.aecr.getLsbD k else s.cfg.aecrAbsentMask.getLsbD k) = true := by
      intro k
      rw [← hbit, BitVec.getLsbD_setWidth, Bool.and_eq_true, decide_eq_true_eq]
      refine ⟨fun h => h.2, fun h => ⟨?_, h⟩⟩
      by_contra hk
      rw [BitVec.getLsbD_of_ge _ _ (by omega)] at h
      cases h
    by_cases ha : s.cfg.aecsrp = true
    · have hc : u.cfg.aecsrp = true := by rw [hf.1]; exact ha
      rw [if_pos hc] at he'
      refine ⟨{ u with aesr := u.aesr ||| (ev &&& rangeControl u).setWidth 32 }, ?_, hp, hd, hpost _ rfl rfl rfl rfl rfl, ?_, ?_⟩
      · exact (hf.mono fun p h => List.mem_cons_of_mem _ h).setAesr _ (List.mem_cons_self ..)
      · intro k
        simp only [BitVec.getLsbD_or, Bool.or_eq_true, haesr, hrec]
        refine or_congr_right ⟨?_, ?_⟩
        · rintro ⟨⟨e, hm, h1, h2⟩, h3⟩
          exact ⟨ha, e, hm, h1, h2, hove', h3⟩
        · rintro ⟨-, e, hm, h1, h2, -, h3⟩
          exact ⟨⟨e, hm, h1, h2⟩, h3⟩
      · rw [he', ← heear]
        exact raisedIn_raise { u with aesr := u.aesr ||| (ev &&& rangeControl u).setWidth 32 } .range
    · have hc : ¬ u.cfg.aecsrp = true := by rw [hf.1]; exact ha
      rw [if_neg hc] at he'
      refine ⟨u, hf.mono fun p h => List.mem_cons_of_mem _ h, hp, hd, hpost _ rfl rfl rfl rfl rfl, ?_, ?_⟩
      · intro k; simp [haesr, ha]
      · rw [he', ← heear]
        exact raisedIn_raise u .range

/-- The rows of the exceptions that carry the address of a data access (R500, R509). -/
def accessRows (c : Config) (ea : BitVec 64) : List (Exc × ExcEntry) :=
  [(.busError ea, c.exceptions.busError), (.dataPageFault ea, c.exceptions.dataPageFault),
    (.alignment ea, c.exceptions.alignment), (.dtlbMiss ea, c.exceptions.dtlbMiss)]

/-- Raising one of them, through its row and with the address in EEAR. -/
theorem raisedIn_of_access {u : State} {ea : BitVec 64} {r : Exc × ExcEntry} (hr : r ∈ accessRows u.cfg ea) :
    RaisedIn u r.1 r.2 ea (raise u r.1) := by
  simp only [accessRows, List.mem_cons, List.not_mem_nil, or_false] at hr
  rcases hr with rfl | rfl | rfl | rfl <;> exact raisedIn_raise u _

end Sys2Proof.Machine
end

