-- ==== Sys2Proof/Laws/Flags.lean ====
section
/-! SUPPORT. The flag computations and the operand forms, in integers. -/

namespace Sys2Proof.Machine

theorem signedOverflow_iff (n : Nat) (i : Int) : signedOverflow n i = true ↔ OutOfRange n i := by
  simp [signedOverflow, OutOfRange]

theorem toNat_ofInt_wrap (n : Nat) (i : Int) : (BitVec.ofInt n i).toNat = wrap n i := by
  simp [wrap, BitVec.toNat_ofInt]

theorem wrap_toInt {n : Nat} (v : BitVec n) : wrap n v.toInt = v.toNat := by
  rw [← toNat_ofInt_wrap, BitVec.ofInt_toInt]

theorem wrap_natCast (n v : Nat) : wrap n (v : Int) = v % 2 ^ n := by
  rw [wrap, show ((2 : Int) ^ n) = ((2 ^ n : Nat) : Int) by norm_cast, ← Int.natCast_mod]; rfl

theorem wrap_of_lt {n v : Nat} (h : v < 2 ^ n) : wrap n (v : Int) = v := by
  rw [wrap_natCast, Nat.mod_eq_of_lt h]

theorem wrap_congr {n : Nat} {i j : Int} (h : (i - j) % 2 ^ n = 0) : wrap n i = wrap n j := by
  unfold wrap; rw [Int.emod_emod_of_dvd i (dvd_refl _) |>.symm, Int.emod_eq_emod_iff_emod_sub_eq_zero.2 h]
  simp

theorem wrap_sval (s : State) (r : RegNum) : wrap s.width (s.sval r) = s.uval r := wrap_toInt _

@[simp] theorem addFlags_res {n : Nat} (a b : BitVec n) (c : Bool) :
    (addFlags a b c).res.toNat = (a.toNat + b.toNat + c.toNat) % 2 ^ n := by simp [addFlags]

theorem addFlags_cy {n : Nat} (a b : BitVec n) (c : Bool) :
    (addFlags a b c).cy = true ↔ 2 ^ n ≤ a.toNat + b.toNat + c.toNat := by simp [addFlags]

theorem addFlags_ov {n : Nat} (a b : BitVec n) (c : Bool) :
    (addFlags a b c).ov = true ↔ OutOfRange n (a.toInt + b.toInt + c.toNat) := signedOverflow_iff _ _

theorem ofInt_sub_toNat {n : Nat} (a b : BitVec n) :
    (BitVec.ofInt n ((a.toNat : Int) - b.toNat)).toNat = wrap n (a.toInt - b.toInt) := by
  rw [toNat_ofInt_wrap]
  refine wrap_congr ?_
  have h : ∀ v : BitVec n, ∃ k : Int, v.toInt = v.toNat + k * 2 ^ n := by
    intro v
    refine ⟨(v.toInt - v.toNat) / 2 ^ n, ?_⟩
    have : ((2 : Int) ^ n) ∣ v.toInt - v.toNat := by
      rw [BitVec.toInt_eq_toNat_bmod]
      have := Int.bmod_emod (x := (v.toNat : Int)) (m := 2 ^ n)
      push_cast at this ⊢
      exact (Int.emod_emod_of_dvd _ (dvd_refl _) ▸ Int.emod_eq_emod_iff_emod_sub_eq_zero.1 this |> Int.dvd_of_emod_eq_zero)
    rw [Int.ediv_mul_cancel this]; ring
  obtain ⟨ka, ha⟩ := h a
  obtain ⟨kb, hb⟩ := h b
  rw [ha, hb]
  exact Int.emod_eq_zero_of_dvd ⟨kb - ka, by ring⟩

@[simp] theorem subFlags_res {n : Nat} (a b : BitVec n) :
    (subFlags a b).res.toNat = wrap n (a.toInt - b.toInt) := ofInt_sub_toNat a b

theorem subFlags_cy {n : Nat} (a b : BitVec n) : (subFlags a b).cy = true ↔ a.toNat < b.toNat := by simp [subFlags]

theorem subFlags_ov {n : Nat} (a b : BitVec n) : (subFlags a b).ov = true ↔ OutOfRange n (a.toInt - b.toInt) :=
  signedOverflow_iff _ _

@[simp] theorem mulSigned_res {n : Nat} (a b : BitVec n) : (mulSigned a b).1.toNat = wrap n (a.toInt * b.toInt) :=
  toNat_ofInt_wrap _ _

theorem mulSigned_ov {n : Nat} (a b : BitVec n) : (mulSigned a b).2 = true ↔ OutOfRange n (a.toInt * b.toInt) :=
  signedOverflow_iff _ _

@[simp] theorem mulUnsigned_res {n : Nat} (a b : BitVec n) : (mulUnsigned a b).1.toNat = a.toNat * b.toNat % 2 ^ n := by
  simp [mulUnsigned]

theorem mulUnsigned_cy {n : Nat} (a b : BitVec n) : (mulUnsigned a b).2 = true ↔ 2 ^ n ≤ a.toNat * b.toNat := by
  simp [mulUnsigned]

theorem eventIf_bit (b : Bool) (e : BitVec 7) (k : Nat) :
    (eventIf b e).getLsbD k = true ↔ b = true ∧ e.getLsbD k = true := by
  unfold eventIf; cases b <;> simp

/-- Each event is one bit of AECR and AESR (R45). -/
theorem event_bits (k : Nat) :
    (evCYADDE.getLsbD k = true ↔ k = 0) ∧ (evOVADDE.getLsbD k = true ↔ k = 1) ∧ (evCYMULE.getLsbD k = true ↔ k = 2) ∧
      (evOVMULE.getLsbD k = true ↔ k = 3) ∧ (evDBZE.getLsbD k = true ↔ k = 4) ∧ (evCYMACADDE.getLsbD k = true ↔ k = 5) ∧
        (evOVMACADDE.getLsbD k = true ↔ k = 6) := by
  by_cases h : k < 7
  · interval_cases k <;> decide
  · have hz : ∀ v : BitVec 7, v.getLsbD k = false := fun v => BitVec.getLsbD_of_ge _ _ (by omega)
    simp only [hz]
    refine ⟨?_, ?_, ?_, ?_, ?_, ?_, ?_⟩ <;> simp <;> omega

/-! ### Operands -/

theorem immSigned_toInt (s : State) (imm : BitVec 16) : (immSigned s imm).toInt = imm.toInt := by
  unfold immSigned
  exact BitVec.toInt_signExtend_of_le (by rcases s.width_cases with h | h <;> omega)

theorem immSigned_toNat (s : State) (imm : BitVec 16) : (immSigned s imm).toNat = wrap s.width imm.toInt := by
  rw [← immSigned_toInt s, wrap_toInt]

theorem immZero_toNat (s : State) (imm : BitVec 16) : (immZero s imm).toNat = imm.toNat := by
  unfold immZero
  rw [BitVec.toNat_setWidth, Nat.mod_eq_of_lt]
  exact lt_of_lt_of_le imm.isLt (Nat.pow_le_pow_right (by norm_num) (by rcases s.width_cases with h | h <;> omega))

theorem pow_amountBits (s : State) : 2 ^ amountBits s.cfg.xlen = s.width := by
  rw [State.width_eq]; cases s.cfg.xlen <;> rfl

theorem shiftAmountReg_eq (s : State) (r : RegNum) : shiftAmountReg s r = s.uval r % s.width := by
  rw [shiftAmountReg, pow_amountBits]; rfl

theorem shiftAmountImm_eq (s : State) (l : BitVec 6) : shiftAmountImm s l = l.toNat % s.width := by
  rw [shiftAmountImm, pow_amountBits]

/-- The target of a pc-relative jump (R201). -/
theorem branchTarget_toNat (s : State) (n : BitVec 26) :
    (branchTarget s n).toNat = wrap s.width (s.pc.toNat + n.toInt * 4) := by
  have hi : ((n ++ 0#2).signExtend 64).toInt = n.toInt * 4 := by
    rw [BitVec.toInt_signExtend_of_le (by omega), BitVec.toInt_eq_toNat_cond, BitVec.toInt_eq_toNat_cond,
      BitVec.toNat_append]
    simp only [Nat.shiftLeft_eq, BitVec.toNat_ofNat]
    have h := n.isLt
    have hor : n.toNat * 2 ^ 2 ||| 0 % 2 ^ 2 = n.toNat * 4 := by simp
    rw [hor]
    split <;> split <;> push_cast <;> omega
  have hn := wrap_toInt ((n ++ 0#2).signExtend 64)
  rw [hi] at hn
  unfold branchTarget
  rw [State.trunc_add_toNat, ← hn]
  unfold wrap
  rcases s.width_cases with h | h <;> rw [h] <;> omega

theorem linkAddr_toNat (s : State) : (linkAddr s).toNat = (s.pc.toNat + if s.cfg.nd then 4 else 8) % 2 ^ s.width := by
  unfold linkAddr
  rw [State.trunc_add_toNat]
  split <;> rfl

theorem registerTarget_toNat (s : State) (r : RegNum) : (registerTarget s r).toNat = s.uval r := by
  unfold registerTarget
  rw [BitVec.toNat_setWidth, Nat.mod_eq_of_lt]; · rfl
  exact lt_of_lt_of_le (s.reg r).isLt (Nat.pow_le_pow_right (by norm_num) s.width_le)

/-- The effective address (R71). -/
theorem effectiveAddr_toNat (s : State) (r : RegNum) (imm : BitVec 16) :
    (effectiveAddr s r imm).toNat = wrap s.width (imm.toInt + s.uval r) := by
  unfold effectiveAddr
  rw [BitVec.toNat_setWidth, Nat.mod_eq_of_lt (lt_of_lt_of_le (BitVec.isLt _) (Nat.pow_le_pow_right (by norm_num) s.width_le)),
    BitVec.toNat_add, immSigned_toNat]
  unfold wrap State.uval
  have h0 : (0 : Int) < 2 ^ s.width := by positivity
  have := Int.emod_nonneg imm.toInt h0.ne'
  zify
  rw [Int.toNat_of_nonneg this, Int.toNat_of_nonneg (Int.emod_nonneg _ h0.ne')]
  rw [Int.emod_add_emod]

end Sys2Proof.Machine
end

