-- ==== Sys2Proof/Laws/Memory.lean ====
section
/-! SUPPORT. Memory: read after write, the canonical form, and wider accesses as numbers. -/

namespace Sys2Proof.Machine

/-! ### One byte -/

theorem readByte_consCell (a k : Nat) (b : Byte) (rest : List Host.Cell)
    (h : readByte rest a = unwrittenByte) :
    readByte (consCell a b rest) k = if k = a then b else readByte rest k := by
  unfold consCell
  split
  · split
    · subst_vars; exact h
    · rfl
  · simp only [readByte, eq_comm (a := a)]

theorem wfAbove_mono {lo hi : Option Nat} {m : List Host.Cell} (h : wfAbove hi m = true)
    (hlt : ∀ l, lo = some l → ∃ u, hi = some u ∧ l ≤ u) : wfAbove lo m = true := by
  cases m with
  | nil => rfl
  | cons c rest =>
    obtain ⟨k, b⟩ := c
    simp only [wfAbove, Bool.and_eq_true] at h ⊢
    refine ⟨⟨?_, h.1.2⟩, h.2⟩
    cases lo with
    | none => rfl
    | some l =>
      obtain ⟨u, rfl, hu⟩ := hlt l rfl
      have := h.1.1
      simp only [decide_eq_true_eq] at this ⊢
      omega

theorem wfAbove_none {lo : Option Nat} {m : List Host.Cell} (h : wfAbove lo m = true) : wfAbove none m = true :=
  wfAbove_mono h (by simp)

/-- Below the bound nothing is listed. -/
theorem readByte_below {l : Nat} {m : List Host.Cell} (h : wfAbove (some l) m = true) {a : Nat} (ha : a ≤ l) :
    readByte m a = unwrittenByte := by
  induction m generalizing l with
  | nil => rfl
  | cons c rest ih =>
    obtain ⟨k, b⟩ := c
    simp only [wfAbove, Bool.and_eq_true, decide_eq_true_eq] at h
    simp only [readByte]
    rw [if_neg (by omega)]
    exact ih h.2 (by omega)

theorem consCell_wf {lo : Option Nat} {a : Nat} {b : Byte} {rest : List Host.Cell}
    (hlo : ∀ l, lo = some l → l < a) (h : wfAbove (some a) rest = true) : wfAbove lo (consCell a b rest) = true := by
  unfold consCell
  split
  · exact wfAbove_mono h fun l hl => ⟨a, rfl, (hlo l hl).le⟩
  · rename_i hb
    simp only [wfAbove, Bool.and_eq_true, decide_eq_true_eq]
    refine ⟨⟨?_, hb⟩, h⟩
    cases lo with
    | none => rfl
    | some l => simpa using hlo l rfl

theorem writeByte_wfAbove {lo : Option Nat} {m : List Host.Cell} (a : Nat) (b : Byte)
    (hlo : ∀ l, lo = some l → l < a) (h : wfAbove lo m = true) : wfAbove lo (writeByte m a b) = true := by
  induction m generalizing lo with
  | nil => exact consCell_wf hlo rfl
  | cons c rest ih =>
    obtain ⟨k, d⟩ := c
    simp only [writeByte]
    have h' := h
    simp only [wfAbove, Bool.and_eq_true, decide_eq_true_eq] at h'
    split
    · refine consCell_wf hlo ?_
      simp only [wfAbove, Bool.and_eq_true, decide_eq_true_eq]
      exact ⟨⟨‹_›, h'.1.2⟩, h'.2⟩
    · split
      · subst_vars; exact consCell_wf hlo h'.2
      · simp only [wfAbove, Bool.and_eq_true, decide_eq_true_eq]
        exact ⟨⟨h'.1.1, h'.1.2⟩, ih (by rintro l ⟨⟩; omega) h'.2⟩

/-- A write of one byte keeps the canonical form. -/
theorem writeByte_wf {m : List Host.Cell} (a : Nat) (b : Byte) (h : Memory.wf m = true) :
    Memory.wf (writeByte m a b) = true := writeByte_wfAbove a b (by simp) h

/-- Another byte is not touched, whatever form the list has. -/
theorem readByte_writeByte_ne {m : List Host.Cell} {a k : Nat} (b : Byte) (hk : k ≠ a) :
    readByte (writeByte m a b) k = readByte m k := by
  have hc : ∀ rest, readByte (consCell a b rest) k = readByte rest k := by
    intro rest; unfold consCell; split
    · rfl
    · simp only [readByte, if_neg (Ne.symm hk)]
  induction m with
  | nil => exact hc []
  | cons c rest ih =>
    obtain ⟨j, d⟩ := c
    simp only [writeByte]
    split
    · exact hc _
    · split
      · subst_vars; simp only [hc, readByte, if_neg (Ne.symm hk)]
      · simp only [readByte, ih]

/-- The byte written reads as written. -/
theorem readByte_writeByte_same {m : List Host.Cell} (a : Nat) (b : Byte) (h : Memory.wf m = true) :
    readByte (writeByte m a b) a = b := by
  suffices ∀ lo, wfAbove lo m = true → readByte (writeByte m a b) a = b from this none h
  have hc : ∀ rest, wfAbove (some a) rest = true → readByte (consCell a b rest) a = b := by
    intro rest hr; unfold consCell; split
    · subst_vars; exact readByte_below hr le_rfl
    · simp [readByte]
  clear h
  induction m with
  | nil => intro _ _; exact hc [] rfl
  | cons c rest ih =>
    intro lo h
    obtain ⟨j, d⟩ := c
    simp only [wfAbove, Bool.and_eq_true, decide_eq_true_eq] at h
    simp only [writeByte]
    split
    · refine hc _ ?_
      simp only [wfAbove, Bool.and_eq_true, decide_eq_true_eq]
      exact ⟨⟨‹_›, h.1.2⟩, h.2⟩
    · split
      · subst_vars; exact hc _ h.2
      · rw [readByte, if_neg (by omega)]
        exact ih _ h.2

theorem readByte_writeByte {m : List Host.Cell} (a k : Nat) (b : Byte) (h : Memory.wf m = true) :
    readByte (writeByte m a b) k = if k = a then b else readByte m k := by
  split
  · subst_vars; exact readByte_writeByte_same _ b h
  · exact readByte_writeByte_ne b ‹_›

/-! ### Several bytes -/

theorem writeBytes_wf {m : List Host.Cell} (a : Nat) (bs : List Byte) (h : Memory.wf m = true) :
    Memory.wf (writeBytes m a bs) = true := by
  induction bs generalizing m a with
  | nil => exact h
  | cons b rest ih => exact ih _ (writeByte_wf a b h)

theorem readByte_writeBytes_outside {m : List Host.Cell} {a k : Nat} (bs : List Byte)
    (hk : k < a ∨ a + bs.length ≤ k) : readByte (writeBytes m a bs) k = readByte m k := by
  induction bs generalizing m a with
  | nil => rfl
  | cons b rest ih =>
    simp only [List.length_cons] at hk
    rw [writeBytes, ih (by omega), readByte_writeByte_ne b (by omega)]

theorem readByte_writeBytes_inside {m : List Host.Cell} (a j : Nat) (bs : List Byte) (h : Memory.wf m = true)
    (hj : j < bs.length) : readByte (writeBytes m a bs) (a + j) = bs[j] := by
  induction bs generalizing m a j with
  | nil => simp at hj
  | cons b rest ih =>
    rw [writeBytes]
    cases j with
    | zero => rw [readByte_writeBytes_outside rest (by omega)]; exact readByte_writeByte_same a b h
    | succ j =>
      have := ih (a + 1) j (writeByte_wf a b h) (by simpa using hj)
      rw [show a + (j + 1) = a + 1 + j by omega]
      simpa using this

@[simp] theorem bytesOf_length (n v : Nat) : (bytesOf n v).length = n := by simp [bytesOf]

theorem bytesOf_get (n v j : Nat) (h : j < (bytesOf n v).length) :
    ((bytesOf n v)[j]).toNat = v / 256 ^ (n - 1 - j) % 256 := by simp [bytesOf]

theorem storeDatum_wf {s : State} (pa n v : Nat) (h : Memory.wf s.mem = true) :
    Memory.wf (storeDatum s pa n v).mem = true := writeBytes_wf _ _ h

/-- What a store of `n` bytes leaves in its bytes (R75). -/
theorem storeDatum_inside {s : State} (pa n v j : Nat) (h : Memory.wf s.mem = true) (hj : j < n) :
    (readByte (storeDatum s pa n v).mem (pa + j)).toNat = v / 256 ^ (n - 1 - j) % 256 := by
  have hj' : j < (bytesOf n v).length := by simpa using hj
  rw [storeDatum, readByte_writeBytes_inside pa j _ h hj', bytesOf_get]

theorem storeDatum_outside {s : State} {pa n v k : Nat} (hk : k < pa ∨ pa + n ≤ k) :
    readByte (storeDatum s pa n v).mem k = readByte s.mem k := readByte_writeBytes_outside _ (by simpa using hk)

/-! ### Reading wider data -/

theorem memNat_lt (m : List Host.Cell) (a n : Nat) : memNat m a n < 256 ^ n := by
  induction n generalizing a with
  | zero => simp [memNat]
  | succ k ih =>
    have := (readByte m a).isLt
    have h := ih (a + 1)
    rw [memNat, pow_succ]
    have : (readByte m a).toNat * 256 ^ k ≤ 255 * 256 ^ k := Nat.mul_le_mul_right _ (by omega)
    omega

theorem bigEndian_cons (b : Byte) (bs : List Byte) :
    bigEndian (b :: bs) = b.toNat * 256 ^ bs.length + bigEndian bs := by
  have h : ∀ (bs : List Byte) (acc : Nat),
      bs.foldl (fun acc b => acc * 256 + b.toNat) acc = acc * 256 ^ bs.length + bigEndian bs := by
    intro bs
    induction bs with
    | nil => intro acc; simp [bigEndian]
    | cons c rest ih =>
      intro acc
      have h0 : bigEndian (c :: rest) = c.toNat * 256 ^ rest.length + bigEndian rest := by
        rw [bigEndian, List.foldl_cons, ih]; simp
      rw [List.foldl_cons, ih, h0, List.length_cons, pow_succ]
      ring
  rw [bigEndian, List.foldl_cons, h]
  simp

theorem readBytes_succ (m : List Host.Cell) (a n : Nat) :
    readBytes m a (n + 1) = readByte m a :: readBytes m (a + 1) n := by
  simp only [readBytes, List.range_succ_eq_map, List.map_cons, List.map_map, Nat.add_zero]
  congr 1
  apply List.map_congr_left
  intro i _
  simp only [Function.comp_apply]
  congr 1; omega

theorem bigEndian_readBytes (m : List Host.Cell) (a n : Nat) : bigEndian (readBytes m a n) = memNat m a n := by
  induction n generalizing a with
  | zero => rfl
  | succ k ih => rw [readBytes_succ, bigEndian_cons, ih, memNat]; simp [readBytes]

theorem loadDatum_toNat (s : State) (pa n : Nat) : (loadDatum s pa n).toNat = memNat s.mem pa n := by
  rw [loadDatum, bigEndian_readBytes, BitVec.toNat_ofNat, Nat.mod_eq_of_lt]
  simpa [pow_mul] using memNat_lt s.mem pa n

theorem memNat_congr {m m' : List Host.Cell} {a n : Nat} (h : ∀ j < n, readByte m (a + j) = readByte m' (a + j)) :
    memNat m a n = memNat m' a n := by
  induction n generalizing a with
  | zero => rfl
  | succ k ih =>
    rw [memNat, memNat, ih fun j hj => by have := h (j + 1) (by omega); rwa [show a + (j + 1) = a + 1 + j by omega] at this]
    have h0 := h 0 (by omega)
    rw [Nat.add_zero] at h0
    rw [h0]

/-- Memory whose bytes are those of a number spells it. -/
theorem memNat_of_bytes {m : List Host.Cell} {a n v : Nat}
    (h : ∀ j < n, (readByte m (a + j)).toNat = v / 256 ^ (n - 1 - j) % 256) : memNat m a n = v % 256 ^ n := by
  induction n generalizing a with
  | zero => simp [memNat, Nat.mod_one]
  | succ k ih =>
    rw [memNat, ih fun j hj => by
      have := h (j + 1) (by omega)
      rwa [show a + (j + 1) = a + 1 + j by omega, show k + 1 - 1 - (j + 1) = k - 1 - j by omega] at this]
    have h0 := h 0 (by omega)
    simp only [Nat.add_zero, Nat.sub_zero, Nat.add_sub_cancel] at h0
    rw [h0, Nat.pow_succ, Nat.mod_mul]
    ring

/-! ### The reservation -/

theorem resvAfterWrite_none (pa n : Nat) : resvAfterWrite none pa n = none := rfl

theorem resvAfterWrite_hit {r pa n : Nat} (h : pa < r + 4 ∧ r < pa + n) : resvAfterWrite (some r) pa n = none := by
  simp [resvAfterWrite, overlapsWord, h]

theorem resvAfterWrite_miss {r pa n : Nat} (h : r + 4 ≤ pa ∨ pa + n ≤ r) : resvAfterWrite (some r) pa n = some r := by
  simp only [resvAfterWrite, overlapsWord, Bool.and_eq_true, decide_eq_true_eq]
  rw [if_neg (by omega)]

theorem resvAfterWrite_some {resv : Option Nat} {pa n r : Nat} (h : resvAfterWrite resv pa n = some r) : resv = some r := by
  cases resv with
  | none => simp [resvAfterWrite] at h
  | some q =>
    simp only [resvAfterWrite] at h
    split at h
    · cases h
    · exact h

/-- Under `FETCH_STALE` a store makes its bytes stale, and no others (R90). -/
theorem mem_stale_storeDatum {s : State} {a : Nat} (pa n v : Nat) (h : s.cfg.fetchStale = true) :
    a ∈ (storeDatum s pa n v).stale ↔ a ∈ s.stale ∨ (pa ≤ a ∧ a < pa + n) := by
  simp only [storeDatum, h, if_true, List.mem_append, List.mem_map, List.mem_range]
  constructor
  · rintro (⟨j, hj, rfl⟩ | h)
    · omega
    · exact .inl h
  · rintro (h | h)
    · exact .inr h
    · exact .inl ⟨a - pa, by omega⟩

/-- What a store does: its bytes, the other bytes, the reservation, the addresses stale for fetch (R75, R88, R90). -/
theorem storeDatum_effect (s : State) (pa n v : Nat) (hm : Memory.wf s.mem = true) :
    (∀ j < n, (readByte (storeDatum s pa n v).mem (pa + j)).toNat = v / 256 ^ (n - 1 - j) % 256) ∧
    (∀ a, a < pa ∨ pa + n ≤ a → readByte (storeDatum s pa n v).mem a = readByte s.mem a) ∧
    (s.cfg.fetchStale = false → (storeDatum s pa n v).stale = s.stale) ∧
    (s.cfg.fetchStale = true → ∀ a, a ∈ (storeDatum s pa n v).stale ↔ a ∈ s.stale ∨ (pa ≤ a ∧ a < pa + n)) ∧
    (s.resv = none → (storeDatum s pa n v).resv = none) ∧
    (∀ r, s.resv = some r → (pa < r + 4 ∧ r < pa + n → (storeDatum s pa n v).resv = none) ∧
      (r + 4 ≤ pa ∨ pa + n ≤ r → (storeDatum s pa n v).resv = some r)) := by
  refine ⟨fun j hj => storeDatum_inside pa n v j hm hj, fun a ha => storeDatum_outside ha,
    fun h => by simp [storeDatum, h], fun h _ => mem_stale_storeDatum pa n v h, fun h => by simp [storeDatum, h, resvAfterWrite_none],
    fun r h => ⟨fun k => ?_, fun k => ?_⟩⟩
  · simp [storeDatum, h, resvAfterWrite_hit k]
  · simp [storeDatum, h, resvAfterWrite_miss k]

/-! ### The outside -/

theorem writeCells_wf {m : List Host.Cell} (cs : List Host.Cell) (h : Memory.wf m = true) :
    Memory.wf (writeCells m cs) = true := by
  induction cs generalizing m with
  | nil => exact h
  | cons c rest ih => exact ih (writeByte_wf _ _ h)

theorem takeInput_wf {s : State} (h : Memory.wf s.mem = true) : Memory.wf (takeInput s).mem = true := writeCells_wf _ h

theorem readByte_writeCells_ne {m : List Host.Cell} {a : Nat} (cs : List Host.Cell) (h : ∀ c ∈ cs, c.1 ≠ a) :
    readByte (writeCells m cs) a = readByte m a := by
  induction cs generalizing m with
  | nil => rfl
  | cons c rest ih =>
    have := ih (m := writeByte m c.1 c.2) fun c hc => h c (List.mem_cons_of_mem _ hc)
    rw [writeCells, List.foldl_cons]
    exact this.trans (readByte_writeByte_ne _ (Ne.symm (h c (List.mem_cons_self ..))))

theorem readByte_writeCells_last {m : List Host.Cell} {a : Nat} {b : Byte} (before after : List Host.Cell)
    (hm : Memory.wf m = true) (h : ∀ c ∈ after, c.1 ≠ a) :
    readByte (writeCells m (before ++ (a, b) :: after)) a = b := by
  have : writeCells m (before ++ (a, b) :: after) = writeCells (writeByte (writeCells m before) a b) after := by
    simp [writeCells]
  rw [this, readByte_writeCells_ne _ h]
  exact readByte_writeByte_same _ _ (writeCells_wf _ hm)

theorem resvAfterCells_none (cs : List Host.Cell) : resvAfterCells none cs = none := by
  induction cs with
  | nil => rfl
  | cons c rest ih => exact ih

theorem resvAfterCells_miss {r : Nat} (cs : List Host.Cell) (h : ∀ c ∈ cs, c.1 < r ∨ r + 4 ≤ c.1) :
    resvAfterCells (some r) cs = some r := by
  induction cs with
  | nil => rfl
  | cons c rest ih =>
    rw [resvAfterCells, List.foldl_cons, resvAfterWrite_miss (by have := h c (List.mem_cons_self ..); omega)]
    exact ih fun c hc => h c (List.mem_cons_of_mem _ hc)

theorem resvAfterCells_hit {r : Nat} (cs : List Host.Cell) (h : ∃ c ∈ cs, r ≤ c.1 ∧ c.1 < r + 4) :
    resvAfterCells (some r) cs = none := by
  induction cs with
  | nil => simp at h
  | cons c rest ih =>
    rw [resvAfterCells, List.foldl_cons]
    by_cases hc : r ≤ c.1 ∧ c.1 < r + 4
    · rw [resvAfterWrite_hit (by omega)]; exact resvAfterCells_none rest
    · rw [resvAfterWrite_miss (by omega)]
      obtain ⟨d, hd, hr⟩ := h
      rcases List.mem_cons.1 hd with rfl | hd
      · exact absurd hr hc
      · exact ih ⟨d, hd, hr⟩

theorem resvAfterCells_some {resv : Option Nat} {cs : List Host.Cell} {r : Nat} (h : resvAfterCells resv cs = some r) :
    resv = some r := by
  induction cs generalizing resv with
  | nil => exact h
  | cons c rest ih => exact resvAfterWrite_some (ih h)

theorem takeInput_resv_some {s : State} {r : Nat} (h : (takeInput s).resv = some r) : s.resv = some r := by
  simp only [takeInput] at h
  split at h
  · cases h
  · exact resvAfterCells_some h

theorem placeWord_wf {s : State} (w : InsnWord) (h : Memory.wf s.mem = true) : Memory.wf (placeWord s w).mem = true :=
  writeBytes_wf _ _ h

theorem reset_wf (c : Config) : Memory.wf (resetWith c).mem = true := rfl

end Sys2Proof.Machine
end

