-- ==== Sys2Proof/Laws/Integer.lean ====
section
/-! SUPPORT. The shared endings of the integer and MAC instructions, once each: what an instruction that
ends in one of them does. -/

namespace Sys2Proof.Machine

variable {s : State} {i : Instr}

theorem uval_of_setReg {t : State} {d : RegNum} (v : BitVec s.width) (hc : t.cfg = s.cfg)
    (hr : t.regs = (s.setReg d v).regs) : t.uval d = v.toNat := by
  rw [State.uval_congr (s := s.setReg d v) hc hr, State.uval_setReg_same]

/-- One register is written (R10). -/
theorem regResult_completes {rD : RegNum} {v : BitVec s.width} {post : State → Prop} (he : exec i s = regResult s rD v)
    (hpost : ∀ t : State, t.cfg = s.cfg → t.uval rD = v.toNat → post t) : Completes i s [.reg rD] post :=
  completes_finish he ((Frame.refl _ s).setReg rD v (by simp)) rfl rfl (hpost _ rfl (uval_of_setReg v rfl rfl))

/-- Addition and subtraction: the result, both flags, both events (R131, R132, R134). -/
theorem addArith_outcome {rD : RegNum} {r : AddResult s.width} {u : Nat} {c o : Prop} (he : exec i s = addArith s rD r)
    (hu : r.res.toNat = u) (hc : r.cy = true ↔ c) (ho : r.ov = true ↔ o) :
    ArithOutcome i s [.reg rD, .sr srCY, .sr srOV] [(0, c), (1, o)]
      fun t => t.uval rD = u ∧ (t.flagCY = true ↔ c) ∧ (t.flagOV = true ↔ o) := by
  refine arithOutcome_of_exec he ?_ rfl rfl rfl rfl ?_ rfl ?_ ?_
  · exact (((Frame.refl _ s).setReg rD _ (by simp)).setSrBit srCY _ (by simp)).setSrBit srOV _ (by simp)
  · simp [State.setOV, State.setCY, srOVE, srOV, srCY, State.srBit_of_sr (State.setReg_sr s rD _)]
  · intro k
    simp only [BitVec.getLsbD_or, Bool.or_eq_true, eventIf_bit, (event_bits k).1, (event_bits k).2.1, hc, ho,
      List.mem_cons, List.not_mem_nil, or_false, exists_eq_or_imp, exists_eq_left]
    tauto
  · intro t h1 h2 h3 _ _
    refine ⟨?_, ?_, ?_⟩
    · rw [← hu]; exact uval_of_setReg r.res h1 h2
    · rw [State.flagCY, State.srBit_of_sr h3, ← hc]; simp [State.setOV, State.setCY, srOV, srCY]
    · rw [State.flagOV, State.srBit_of_sr h3, ← ho]; simp [State.setOV, srOV]

/-- Signed multiplication: the result, OV and its event (R133, R134). -/
theorem mulArith_outcome {rD : RegNum} {r : BitVec s.width × Bool} {u : Nat} {o : Prop} (he : exec i s = mulArith s rD r)
    (hu : r.1.toNat = u) (ho : r.2 = true ↔ o) :
    ArithOutcome i s [.reg rD, .sr srOV] [(3, o)] fun t => t.uval rD = u ∧ (t.flagOV = true ↔ o) := by
  refine arithOutcome_of_exec he ?_ rfl rfl rfl rfl ?_ rfl ?_ ?_
  · exact ((Frame.refl _ s).setReg rD _ (by simp)).setSrBit srOV _ (by simp)
  · simp [State.setOV, srOVE, srOV, State.srBit_of_sr (State.setReg_sr s rD _)]
  · intro k
    simp only [eventIf_bit, (event_bits k).2.2.2.1, ho, List.mem_cons, List.not_mem_nil, or_false, exists_eq_left]
    tauto
  · intro t h1 h2 h3 _ _
    refine ⟨?_, ?_⟩
    · rw [← hu]; exact uval_of_setReg r.1 h1 h2
    · rw [State.flagOV, State.srBit_of_sr h3, ← ho]; simp [State.setOV, srOV]

/-- A register and CY with the event CYMULE, for `l.mulu` (R133, R134). -/
theorem mulu_outcome {rD : RegNum} {v : BitVec s.width} {b : Bool} {u : Nat} {c : Prop}
    (he : exec i s = arithEvent ((s.setReg rD v).setCY b) (eventIf b evCYMULE)) (hu : v.toNat = u) (hc : b = true ↔ c) :
    ArithOutcome i s [.reg rD, .sr srCY] [(2, c)] fun t => t.uval rD = u ∧ (t.flagCY = true ↔ c) := by
  refine arithOutcome_of_exec he ?_ rfl rfl rfl rfl ?_ rfl ?_ ?_
  · exact ((Frame.refl _ s).setReg rD _ (by simp)).setSrBit srCY _ (by simp)
  · simp [State.setCY, srOVE, srCY, State.srBit_of_sr (State.setReg_sr s rD _)]
  · intro k
    simp only [eventIf_bit, (event_bits k).2.2.1, hc, List.mem_cons, List.not_mem_nil, or_false, exists_eq_left]
    tauto
  · intro t h1 h2 h3 _ _
    refine ⟨?_, ?_⟩
    · rw [← hu]; exact uval_of_setReg v h1 h2
    · rw [State.flagCY, State.srBit_of_sr h3, ← hc]; simp [State.setCY, srCY]

/-- Division by zero: a free register, the flag at bit `fl` of SR set, the event DBZE (R143, R144). -/
theorem divZero_outcome {rD : RegNum} {v : BitVec s.width} {fl : Nat} (hfl : fl = srCY ∨ fl = srOV)
    (he : exec i s = arithEvent (((s.setReg rD v).setSrBit fl true).spend) evDBZE) :
    ArithOutcome i s [.reg rD, .sr fl, .draws] [(4, True)] fun t => t.srBit fl = true := by
  refine arithOutcome_of_exec he ?_ rfl rfl rfl rfl ?_ rfl ?_ ?_
  · exact ((((Frame.refl _ s).setReg rD _ (by simp)).setSrBit fl _ (by simp)).spend (by simp))
  · rcases hfl with rfl | rfl <;>
      simp [srOVE, srCY, srOV, State.srBit_of_sr (State.spend_sr _), State.srBit_of_sr (State.setReg_sr s rD _)]
  · intro k; simp [(event_bits k).2.2.2.2.1, eq_comm]
  · intro t h1 h2 h3 _ _
    rw [State.srBit_of_sr h3, State.srBit_of_sr (State.spend_sr _)]
    rcases hfl with rfl | rfl <;> simp [srCY, srOV]

/-- A compare writes F alone (R200). -/
theorem setFlag_completes {b : Bool} {c : Prop} (he : exec i s = setFlag s b) (hb : b = true ↔ c) :
    Completes i s [.sr srF] fun t => t.flagF = true ↔ c := by
  refine completes_finish he ((Frame.refl _ s).setSrBit srF b (by simp)) rfl rfl ?_
  rw [State.flagF, State.srBit_of_sr (State.advance_sr _), ← hb]
  simp [State.setF, srF]

/-! ### The accumulator -/

theorem State.acc_toNat (s : State) : s.acc.toNat = s.accU := by
  rw [State.acc, State.accU, BitVec.toNat_append]
  have h := s.maclo.isLt
  rw [Nat.shiftLeft_eq, Nat.or_comm, mul_comm, Nat.lor_comm]
  exact (Nat.two_pow_add_eq_or_of_lt h _).symm ▸ by ring

theorem State.acc_toInt (s : State) : s.acc.toInt = s.accS := by
  rw [State.accS, ← State.acc_toNat, BitVec.toInt_eq_toNat_cond]
  split <;> split <;> first | rfl | omega

theorem State.setAcc_accU (s : State) (v : BitVec 64) : (s.setAcc v).accU = v.toNat := by
  simp only [State.accU, State.setAcc_machi, State.setAcc_maclo, BitVec.extractLsb'_toNat, Nat.shiftRight_eq_div_pow]
  have := v.isLt
  omega

theorem State.accU_congr {s t : State} (h : t.machi = s.machi) (h' : t.maclo = s.maclo) : t.accU = s.accU := by
  simp [State.accU, h, h']

/-- An accumulate with its flag at bit `fl` of SR and its event at bit `e` of AECR (R251, R258, R259). -/
theorem macFlag_outcome {v : BitVec 64} {b : Bool} {fl e n : Nat} {ev : BitVec 7} {c : Prop} (hfl : fl = srCY ∨ fl = srOV)
    (hev : ∀ k, ev.getLsbD k = true ↔ k = e) (he : exec i s = arithEvent ((s.setAcc v).setSrBit fl b) (eventIf b ev))
    (hn : v.toNat = n) (hc : b = true ↔ c) :
    ArithOutcome i s [.machi, .maclo, .sr fl] [(e, c)] fun t => t.accU = n ∧ (t.srBit fl = true ↔ c) := by
  refine arithOutcome_of_exec he ?_ rfl rfl rfl rfl ?_ rfl ?_ ?_
  · exact ((Frame.refl _ s).setAcc v (by simp) (by simp)).setSrBit fl b (by simp)
  · rcases hfl with rfl | rfl <;> simp [srOVE, srCY, srOV, State.srBit_of_sr (State.setAcc_sr s _)]
  · intro k
    simp only [eventIf_bit, hev, hc, List.mem_cons, List.not_mem_nil, or_false, exists_eq_left]
    tauto
  · intro t h1 h2 h3 h4 h5
    refine ⟨?_, ?_⟩
    · rw [State.accU_congr h4 h5, ← hn]; exact State.setAcc_accU s v
    · rw [State.srBit_of_sr h3, ← hc]; rcases hfl with rfl | rfl <;> simp [srCY, srOV]

end Sys2Proof.Machine
end

