-- ==== Sys2Proof/Laws/Shift.lean ====
section
/-! SUPPORT. Shifts, rotates, extensions and bit searches, as arithmetic. -/

namespace Sys2Proof.Machine

/-- The bits that leave at the right come in at the left (R159). -/
theorem rotateRight_toNat {n : Nat} (v : BitVec n) (k : Nat) (hk : k < n) :
    (v.rotateRight k).toNat = v.toNat / 2 ^ k + v.toNat % 2 ^ k * 2 ^ (n - k) := by
  rw [BitVec.rotateRight_eq_rotateRightAux_of_lt hk]
  unfold BitVec.rotateRightAux
  rw [BitVec.toNat_or, BitVec.toNat_ushiftRight, BitVec.toNat_shiftLeft, Nat.shiftRight_eq_div_pow, Nat.shiftLeft_eq]
  have hv := v.isLt
  have hsplit : 2 ^ n = 2 ^ k * 2 ^ (n - k) := by rw [← pow_add]; congr 1; omega
  have h1 : v.toNat * 2 ^ (n - k) % 2 ^ n = v.toNat % 2 ^ k * 2 ^ (n - k) := by
    rw [hsplit, Nat.mul_mod_mul_right]
  have h2 : v.toNat / 2 ^ k < 2 ^ (n - k) := by
    rw [Nat.div_lt_iff_lt_mul (by positivity), mul_comm, ← hsplit]; exact hv
  rw [h1, Nat.lor_comm, mul_comm, ← Nat.two_pow_add_eq_or_of_lt h2]
  ring

/-- An arithmetic shift divides the signed number, rounding down (R163). -/
theorem sshiftRight_toNat {n : Nat} (v : BitVec n) (k : Nat) : (v.sshiftRight k).toNat = wrap n (v.toInt / 2 ^ k) := by
  rw [← wrap_toInt, BitVec.toInt_sshiftRight, Int.shiftRight_eq_div_pow]
  norm_cast

/-- Sign extension, as the integers see it (R145). -/
theorem signExtend_toNat {w k : Nat} (v : BitVec k) (hk : 0 < k) (hkw : k ≤ w) : (v.signExtend w).toNat = signedLow w k v.toNat := by
  have hv := v.isLt
  rw [signedLow, Nat.mod_eq_of_lt hv, ← wrap_toInt, BitVec.toInt_signExtend_of_le hkw, BitVec.toInt_eq_toNat_cond]
  have hp : 2 ^ k ≤ 2 ^ w := Nat.pow_le_pow_right (by norm_num) hkw
  have hh : 2 ^ k = 2 * 2 ^ (k - 1) := by rw [← pow_succ']; congr 1; omega
  by_cases h : 2 * v.toNat < 2 ^ k
  · rw [if_pos h, if_pos (by omega), wrap_of_lt (by omega)]
  · rw [if_neg h, if_neg (by omega), wrap]
    have : ((v.toNat : Int) - (2 ^ k : Nat)) % 2 ^ w = ((v.toNat + 2 ^ w - 2 ^ k : Nat) : Int) := by
      rw [Int.emod_eq_iff (by positivity)]
      push_cast [show 2 ^ k ≤ v.toNat + 2 ^ w by omega]
      refine ⟨by have : (2:Int)^k ≤ 2^w := by exact_mod_cast hp
                 omega, by have : (v.toNat : Int) < 2^k := by exact_mod_cast hv
                           have h3 : (0:Int) < 2^w := by positivity
                           rw [abs_of_pos h3]
                           omega, 1, by ring⟩
    rw [this]; rfl

theorem findFirst_eq {n : Nat} (v : BitVec n) (k : Nat) (hk : v.toNat.testBit k = true) (hl : ∀ j < k, v.toNat.testBit j = false) :
    findFirst v = k + 1 := by
  have hkn : k < n := by
    by_contra h
    rw [Nat.testBit_lt_two_pow (lt_of_lt_of_le v.isLt (Nat.pow_le_pow_right (by norm_num) (by omega)))] at hk
    cases hk
  have : (List.range n).find? (fun i => v.getLsbD i) = some k := by
    rw [List.find?_range_eq_some]
    exact ⟨hk, List.mem_range.2 hkn, fun j hj => by simpa [BitVec.getLsbD] using hl j hj⟩
  rw [findFirst, this]

theorem findLast_eq {n : Nat} (v : BitVec n) (k : Nat) (hk : v.toNat.testBit k = true) (hl : ∀ j, k < j → v.toNat.testBit j = false) :
    findLast v = k + 1 := by
  have hkn : k < n := by
    by_contra h
    rw [Nat.testBit_lt_two_pow (lt_of_lt_of_le v.isLt (Nat.pow_le_pow_right (by norm_num) (by omega)))] at hk
    cases hk
  have : ∀ m, k < m → (List.range m).reverse.find? (fun i => v.getLsbD i) = some k := by
    intro m hm
    induction m with
    | zero => omega
    | succ m ih =>
      rw [List.range_succ, List.reverse_append, List.reverse_singleton, List.singleton_append, List.find?_cons]
      by_cases h : k = m
      · subst h
        have : v.getLsbD k = true := hk
        rw [this]
      · have : v.getLsbD m = false := hl m (by omega)
        rw [this]; exact ih (by omega)
  rw [findLast, this n hkn]

@[simp] theorem findFirst_zero (n : Nat) : findFirst 0#n = 0 := by
  have : (List.range n).find? (fun i => (0#n).getLsbD i) = none := by simp
  rw [findFirst, this]

@[simp] theorem findLast_zero (n : Nat) : findLast 0#n = 0 := by
  have : (List.range n).reverse.find? (fun i => (0#n).getLsbD i) = none := by simp
  rw [findLast, this]

end Sys2Proof.Machine
end

