-- ==== Sys2Proof/Laws/LoadStore.lean ====
section
/-! SUPPORT. What a taken jump, a load, a store and the checks of an access do, once each. -/

namespace Sys2Proof.Machine

variable {s u : State} {i : Instr} {w : List Part}

/-- A taken jump: at once under `ND`, else after the delay slot (R201). -/
theorem jumps_takeJump {x : BitVec 64} {n : Nat} {post : State → Prop} (he : exec i s = .next (u.takeJump x))
    (hf : Frame w s u) (hp : u.pc = s.pc) (hd : u.ds = none) (hx : x.toNat = n) (hpost : post (u.takeJump x)) :
    Jumps i s n w post := by
  have hw : u.width = s.width := by rw [State.width_eq, State.width_eq, hf.1]
  refine ⟨_, he, ?_, hf.takeJump x, hpost, fun hn => ?_, fun hn => ?_⟩
  · rw [← hp]; unfold State.takeJump; split <;> rfl
  · have : u.takeJump x = u.goto x := by rw [State.takeJump, if_pos (by rw [hf.1]; exact hn)]
    rw [this]; exact ⟨hd, hx⟩
  · have : u.takeJump x = { u.goto (u.trunc (u.pc + 4#64)) with ds := some x } := by
      rw [State.takeJump, if_neg (by rw [hf.1, hn]; simp)]
    rw [this]
    refine ⟨?_, x, rfl, hx⟩
    change (u.trunc (u.pc + 4#64)).toNat = _
    rw [State.trunc_add_toNat, hp, hw]; rfl

/-- `BusOK`, byte by byte (R81). -/
theorem busOk_iff (c : Config) (pa n : Nat) (k : AccessKind) :
    busOk c pa n k = true ↔
      ∀ j < n, ∃ r ∈ c.regions, r.base ≤ pa + j ∧ pa + j < r.base + r.size ∧ regionAdmits r k n = true := by
  simp [busOk, and_assoc]

/-- The checks of an access that succeeds (R83). -/
theorem access_ok {k : AccessKind} {n : Nat} {ea : BitVec 64} {pa : Nat} (h : access s k n ea = .ok pa) :
    ea.toNat % n = 0 ∧ translate s k ea = .to pa ∧ busOk s.cfg pa n k = true := by
  unfold access at h
  split at h
  · cases h
  · rename_i ha
    refine ⟨by simpa using ha, ?_⟩
    split at h
    · cases h
    · cases h
    · split at h
      · cases h; exact ⟨‹_›, ‹_›⟩
      · cases h

/-- The exception of an access that fails is one of four, with the effective address (R80 to R83). -/
theorem access_error {k : AccessKind} {n : Nat} {ea : BitVec 64} {e : Exc} (h : access s k n ea = .error e)
    (hk : k ≠ .fetch) : e = .busError ea ∨ e = .dataPageFault ea ∨ e = .alignment ea ∨ e = .dtlbMiss ea := by
  unfold access at h
  split at h
  · cases h; simp
  · split at h
    · cases h; cases k <;> simp_all [missOf]
    · cases h; cases k <;> simp_all [pageFaultOf]
    · split at h
      · cases h
      · cases h; simp

theorem loadOp_error {n : Nat} {sign : Bool} {rD rA : RegNum} {imm : BitVec 16} {e : Exc}
    (h : access s .load n (effectiveAddr s rA imm) = .error e) : loadOp n sign s rD rA imm = raise s e := by
  simp only [loadOp, h]

theorem storeOp_error {n : Nat} {rA rB : RegNum} {imm : BitVec 16} {e : Exc}
    (h : access s .store n (effectiveAddr s rA imm) = .error e) : storeOp n s rA rB imm = raise s e := by
  simp only [storeOp, h]

/-- What a load writes to its register (R220). -/
theorem loadValue_toNat (s : State) (n pa : Nat) (sign : Bool) (hn : 0 < n) (hw : 8 * n ≤ s.width) :
    (if sign then (loadDatum s pa n).signExtend s.width else (loadDatum s pa n).setWidth s.width).toNat =
      if sign then signedLow s.width (8 * n) (memNat s.mem pa n) else memNat s.mem pa n := by
  have hlt : memNat s.mem pa n < 2 ^ s.width := by
    refine lt_of_lt_of_le (memNat_lt _ _ _) ?_
    rw [show (256 : Nat) = 2 ^ 8 by norm_num, ← pow_mul]
    exact Nat.pow_le_pow_right (by norm_num) hw
  cases sign
  · simp only [Bool.false_eq_true, if_false, BitVec.toNat_setWidth, loadDatum_toNat]
    exact Nat.mod_eq_of_lt hlt
  · simp only [if_true]
    rw [signExtend_toNat _ (by omega) hw, loadDatum_toNat]

theorem loadOp_completes {n : Nat} {sign : Bool} {rD rA : RegNum} {imm : BitVec 16} {pa : Nat}
    (he : exec i s = loadOp n sign s rD rA imm) (h : access s .load n (effectiveAddr s rA imm) = .ok pa)
    (hn : 0 < n) (hw : 8 * n ≤ s.width) :
    Completes i s [.reg rD] fun t =>
      t.uval rD = if sign then signedLow s.width (8 * n) (memNat s.mem pa n) else memNat s.mem pa n := by
  have he' : exec i s = regResult s rD
      (if sign then (loadDatum s pa n).signExtend s.width else (loadDatum s pa n).setWidth s.width) := by
    rw [he]; simp only [loadOp, h]; rfl
  refine regResult_completes he' fun t _ ht => ?_
  rw [ht, loadValue_toNat s n pa sign hn hw]

theorem storeOp_completes {n : Nat} {rA rB : RegNum} {imm : BitVec 16} {pa : Nat} {post : State → Prop}
    (he : exec i s = storeOp n s rA rB imm) (h : access s .store n (effectiveAddr s rA imm) = .ok pa)
    (hpost : post (storeDatum s pa n (s.uval rB)).advance) : Completes i s [.mem, .resv, .stale] post := by
  refine completes_finish (u := storeDatum s pa n (s.uval rB)) (by rw [he]; simp only [storeOp, h]; rfl) ?_ rfl rfl hpost
  exact (Frame.refl _ s).storeDatum _ _ _ (by simp) (by simp) (by simp)

end Sys2Proof.Machine
end

