-- ==== Sys2Proof/Laws/Reset.lean ====
section
/-! SUPPORT. Reset and EVBAR: the fixed bits, and the reset vector. -/

namespace Sys2Proof.Machine

/-- EVBAR has no low bits to lose (R44). -/
theorem evbar_masked (v : BitVec 19) : (v ++ 0#13 : BitVec 32) &&& 0xFFFFE000#32 = v ++ 0#13 := by
  have h : 0xFFFFE000#32 = BitVec.allOnes 19 ++ 0#13 := by decide
  rw [h]
  refine (BitVec.and_append (x₁ := v) (y₁ := 0#13) (x₂ := BitVec.allOnes 19) (y₂ := 0#13)).trans ?_
  rw [BitVec.and_allOnes, BitVec.and_self]

theorem evbar_low (v : BitVec 19) : (v ++ 0#13 : BitVec 32) &&& 0x1FFF#32 = 0#32 := by
  have h : 0x1FFF#32 = 0#19 ++ BitVec.allOnes 13 := by decide
  rw [h]
  refine (BitVec.and_append (x₁ := v) (y₁ := 0#13) (x₂ := 0#19) (y₂ := BitVec.allOnes 13)).trans ?_
  rw [BitVec.and_zero, BitVec.zero_and]
  rfl

theorem resetEvbar_low (c : Config) : resetEvbar c &&& 0x1FFF#32 = 0#32 := by
  unfold resetEvbar; split
  · exact evbar_low _
  · decide

theorem resetSr_eph (c : Config) : (resetSr c).getLsbD srEPH = c.resetEph := by
  unfold resetSr; cases c.resetEph <;> decide

/-- The pc after reset is the vector address of the reset exception (R506, R560). -/
theorem resetPc_eq_vectorAddr (c : Config) : resetPc c = vectorAddr (resetWith c) .reset := by
  simp only [resetPc, vectorAddr, State.srBit, resetWith_sr, resetSr_eph, resetWith_cfg, resetWith_evbar, excEntry]
  unfold resetEvbar
  by_cases h : c.evbarp = true
  · simp only [h, if_true, evbar_masked]
  · simp only [h, if_false, Bool.false_eq_true]

end Sys2Proof.Machine
end

