-- ==== Sys2Proof/Laws/Spr.lean ====
section
/-! SUPPORT. Which special-purpose register stands at an address, and what `l.mfspr` and `l.mtspr` do with it. -/

namespace Sys2Proof.Machine

variable {s : State} {c : Config} {a : BitVec 16}

theorem sprAddr_toNat (s : State) (rA : RegNum) (imm : BitVec 16) :
    (sprAddr s rA imm).toNat = (s.uval rA ||| imm.toNat) % 2 ^ 16 := by
  rw [sprAddr, BitVec.toNat_setWidth, BitVec.toNat_or, immZero_toNat]; rfl

theorem sprTable_addr_lt (e : Nat × Spr × Bool) (h : e ∈ sprTable c) : e.1 < 0x400 ∨ 0x420 ≤ e.1 := by
  simp only [sprTable, List.mem_cons, List.not_mem_nil, or_false] at h
  rcases h with rfl | rfl | rfl | rfl | rfl | rfl | rfl | rfl | rfl | rfl | rfl | rfl | rfl | rfl | rfl | rfl | rfl |
    rfl | rfl | rfl | rfl | rfl | rfl | rfl | rfl <;> simp

/-- Two rows at one address are the same row. -/
theorem sprTable_inj : (sprTable c).Pairwise fun e f => e.1 ≠ f.1 := by
  have : ((sprTable c).map (·.1)).Pairwise (· ≠ ·) := by simp [sprTable]
  exact List.pairwise_map.1 this

/-- The register of a row that is present is the register at its address. -/
theorem sprAt_some {r : Spr} (h : (a.toNat, r, true) ∈ sprTable c) : sprAt c a = some r := by
  have hr := sprTable_addr_lt _ h
  rw [sprAt, if_neg (by simp only at hr; omega)]
  have key : ∀ l : List (Nat × Spr × Bool), l.Pairwise (fun e f => e.1 ≠ f.1) → (a.toNat, r, true) ∈ l →
      l.find? (fun e => e.1 == a.toNat && e.2.2) = some (a.toNat, r, true) := by
    intro l
    induction l with
    | nil => intro _ h; simp at h
    | cons e rest ih =>
      intro hp hm
      rw [List.pairwise_cons] at hp
      rcases List.mem_cons.1 hm with h | h
      · rw [← h]; simp
      · have hne : e.1 ≠ a.toNat := hp.1 _ h
        rw [List.find?_cons_of_neg (by simp [hne])]
        exact ih hp.2 h
  rw [key _ sprTable_inj h]

theorem sprAt_gpr {r : RegNum} (h : a.toNat = 0x400 + r.toNat) (hg : sprListed c a.toNat false = true) : sprAt c a = some (.gpr r) := by
  have hr := r.isLt
  rw [sprAt, if_pos (by omega), if_pos hg]
  congr 2
  rw [← BitVec.toNat_inj, BitVec.toNat_ofNat, h]
  omega

theorem sprAt_none (hg : 0x400 ≤ a.toNat → a.toNat < 0x420 → sprListed c a.toNat false = false)
    (h : ∀ e ∈ sprTable c, e.1 = a.toNat → e.2.2 = false) : sprAt c a = none := by
  unfold sprAt
  split
  · rename_i h'; rw [if_neg (by rw [hg h'.1 h'.2]; simp)]
  · have : (sprTable c).find? (fun e => e.1 == a.toNat && e.2.2) = none := by
      rw [List.find?_eq_none]
      intro e he
      simp only [Bool.and_eq_true, beq_iff_eq, not_and]
      intro k; rw [h e he k]; simp
    rw [this]

theorem sprRead_some {r : Spr} {n : Nat} (ha : a.toNat = n) (h : (n, r, true) ∈ sprTable s.cfg) :
    sprRead s a = readSpr s r := by
  subst ha; rw [sprRead, sprAt_some h]

theorem sprWrite_some {r : Spr} {n : Nat} {v : BitVec 32} (ha : a.toNat = n) (h : (n, r, true) ∈ sprTable s.cfg) :
    sprWrite s a v = writeSpr s r v := by
  subst ha; rw [sprWrite, sprAt_some h]

/-- `l.mfspr` in supervisor mode: the word read goes to the register (R280). -/
theorem mfspr_completes {rD rA : RegNum} {k : BitVec 16} {v : BitVec 32} {post : State → Prop} (hs : s.supervisor = true)
    (h : sprRead s (sprAddr s rA k) = v) (hp : ∀ t : State, t.cfg = s.cfg → t.pc = s.nextPc → t.uval rD = v.toNat → post t) :
    Completes (.lMfspr rD rA k) s [.reg rD] post := by
  refine completes_finish (u := s.setReg rD v)
    (by simp only [exec, execLMfspr, privileged_supervisor hs, regResultSpr, h]) ((Frame.refl _ s).setReg _ _ (by simp)) rfl rfl ?_
  refine hp _ rfl rfl ?_
  have : (s.setReg rD v).advance.uval rD = (s.setReg rD v).uval rD := State.uval_congr rfl rfl _
  rw [this, State.uval_setReg, if_pos rfl]
  refine Nat.mod_eq_of_lt (lt_of_lt_of_le v.isLt (Nat.pow_le_pow_right (by norm_num) ?_))
  have := s.width_cases; omega

/-- `l.mtspr` in supervisor mode: the write, if it is allowed, and nothing else (R282). -/
theorem mtspr_completes {rA rB : RegNum} {k : BitVec 16} {u : State} {w : List Part} {post : State → Prop}
    (hs : s.supervisor = true) (h : sprWrite s (sprAddr s rA k) ((s.reg rB).setWidth 32) = .ok u) (hf : Frame w s u)
    (hp : u.pc = s.pc) (hd : u.ds = s.ds) (hpost : post u.advance) : Completes (.lMtspr rA rB k) s w post :=
  completes_finish (by simp only [exec, execLMtspr, privileged_supervisor hs, h]) hf hp hd hpost

theorem mtspr_refused {rA rB : RegNum} {k : BitVec 16} {r : Refusal} (hs : s.supervisor = true)
    (h : sprWrite s (sprAddr s rA k) ((s.reg rB).setWidth 32) = .error r) : exec (.lMtspr rA rB k) s = .refused r := by
  simp only [exec, execLMtspr, privileged_supervisor hs, h]

/-- The values that SR does not take, bit by bit (R77, R79, R91). -/
theorem refusedSr_iff (c : Config) (v : BitVec 32) :
    refusedSr c v = true ↔
      ∃ j ∈ [srLEE, srDCE, srICE] ++ (if c.hasMmu then [] else [srDME, srIME]), v.getLsbD j = true := by
  unfold refusedSr
  cases c.hasMmu <;> simp [or_assoc]

/-- What SR holds of a word written to it, bit by bit (R36). -/
theorem writtenSr_bit (v : BitVec 32) (j : Nat) :
    (writtenSr v).getLsbD j = if j = srFO then true else if 17 ≤ j ∧ j ≤ 27 then false else if j < 32 then v.getLsbD j else false := by
  have hm : (0xF0017FFF#32).getLsbD j = (decide (j < 32) && !decide (17 ≤ j ∧ j ≤ 27) && !decide (j = 15)) := by
    by_cases h : j < 32
    · interval_cases j <;> decide
    · rw [BitVec.getLsbD_of_ge _ _ (by omega)]; simp [h]
  have ho : (0x00008000#32).getLsbD j = decide (j = 15) := by
    by_cases h : j < 32
    · interval_cases j <;> decide
    · rw [BitVec.getLsbD_of_ge _ _ (by omega)]; simp; omega
  rw [writtenSr, BitVec.getLsbD_or, BitVec.getLsbD_and, hm, ho, srFO]
  by_cases h1 : j = 15
  · simp [h1]
  · by_cases h2 : 17 ≤ j ∧ j ≤ 27
    · simp [h1, h2]
    · by_cases h3 : j < 32
      · simp [h1, h3, h2]
      · simp [h1, h3]

end Sys2Proof.Machine
end

