-- ==== Sys2Proof/Laws/Invariant.lean ====
section
/-! SUPPORT. The invariant, update by update, and outcome by outcome. -/

namespace Sys2Proof.Machine

variable {s u : State}

/-- An outcome that keeps the invariant and the configuration. -/
def Keeps (c : Config) (o : Outcome) : Prop := ∀ t, o = .next t → Inv t ∧ t.cfg = c

/-! ### Updates -/

theorem narrow_of_le {v : BitVec 64} {n : Nat} (x : BitVec n) (hv : v.toNat = x.toNat) (hn : n ≤ s.width) : Narrow s v := by
  unfold Narrow; rw [hv]
  exact lt_of_lt_of_le x.isLt (Nat.pow_le_pow_right (by norm_num) hn)

theorem Narrow.congr {s t : State} {v : BitVec 64} (h : Narrow s v) (hc : t.cfg = s.cfg) : Narrow t v := by
  rw [Narrow, State.width_eq] at h ⊢; rwa [hc]

theorem narrow_trunc (s : State) (v : BitVec 64) : Narrow s (s.trunc v) := by
  unfold Narrow; rw [State.trunc_toNat]; exact Nat.mod_lt _ (Nat.two_pow_pos _)

theorem narrow_setWidth {n : Nat} (x : BitVec n) (hx : x.toNat < 2 ^ s.width) : Narrow s (x.setWidth 64) := by
  unfold Narrow; rw [BitVec.toNat_setWidth]; exact lt_of_le_of_lt (Nat.mod_le _ _) hx

/-- A value of at most `XLEN` bits written to a register keeps the invariant. -/
theorem Inv.setReg (h : Inv u) (d : RegNum) {n : Nat} (v : BitVec n) (hv : v.toNat < 2 ^ u.width) : Inv (u.setReg d v) := by
  obtain ⟨h1, h2, h3, h4, h5, h6, h7, h8, h9, h⟩ := h
  refine ⟨h1, h2, h3, h4, h5, h6, h7, h8, fun r => ?_, h⟩
  have this : (u.setReg d v).regs.get r = if BitVec.ofFin r = d then v.setWidth 64 else u.regs.get r :=
    State.setReg_get u d (BitVec.ofFin r) v
  rw [this]
  split
  · exact narrow_setWidth (s := u) v hv
  · exact h9 r

theorem Inv.setReg_width (h : Inv u) (d : RegNum) {n : Nat} (v : BitVec n) (hn : n ≤ u.width) : Inv (u.setReg d v) :=
  h.setReg d v (lt_of_lt_of_le v.isLt (Nat.pow_le_pow_right (by norm_num) hn))

theorem setBit_and_of_false {v m : BitVec 32} {i : Nat} {b : Bool} (hm : m.getLsbD i = false) :
    setBit v i b &&& m = v &&& m := by
  apply BitVec.eq_of_getLsbD_eq; intro j _
  rw [BitVec.getLsbD_and, BitVec.getLsbD_and, setBit_getLsbD]
  split
  · rename_i h; rw [h.1, hm]; simp
  · rfl

theorem refusedSr_congr {c : Config} {v w : BitVec 32}
    (h : ∀ j ∈ [srLEE, srDCE, srICE, srDME, srIME], w.getLsbD j = v.getLsbD j) : refusedSr c w = refusedSr c v := by
  simp only [List.mem_cons, List.not_mem_nil, or_false, forall_eq_or_imp, forall_eq] at h
  obtain ⟨a, b, d, e, f⟩ := h
  simp only [refusedSr, a, b, d, e, f]

/-- A write of a flag keeps the invariant. -/
theorem Inv.setFlag (h : Inv u) (i : Nat) (b : Bool) (hi : i = srF ∨ i = srCY ∨ i = srOV) : Inv (u.setSrBit i b) := by
  obtain ⟨h1, h2, h3, h4, h⟩ := h
  refine ⟨h1, ?_, ?_, ?_, h⟩
  · rw [State.setSrBit_sr, setBit_and_of_false]
    · exact h2
    · rcases hi with rfl | rfl | rfl <;> decide
  · rw [State.srBit_setSrBit, if_neg]
    · exact h3
    · rcases hi with rfl | rfl | rfl <;> decide
  · rw [State.setSrBit_sr, refusedSr_congr (v := u.sr)]
    · exact h4
    · intro j hj
      rw [setBit_getLsbD, if_neg]
      simp only [List.mem_cons, List.not_mem_nil, or_false, srLEE, srDCE, srICE, srDME, srIME] at hj
      simp only [srF, srCY, srOV] at hi
      omega

theorem Inv.setSr (h : Inv u) {v : BitVec 32} (h1 : v &&& 0x0FFE0000#32 = 0#32) (h2 : v.getLsbD srFO = true)
    (h3 : refusedSr u.cfg v = false) : Inv { u with sr := v } := ⟨h.1, h1, h2, h3, h.2.2.2.2⟩

theorem Inv.spend (h : Inv u) : Inv u.spend := h
theorem Inv.setAcc (h : Inv u) (v : BitVec 64) : Inv (u.setAcc v) := h
theorem Inv.syncFetch (h : Inv u) : Inv (syncFetch u) := h
theorem Inv.setEsr (h : Inv u) (v : BitVec 32) : Inv { u with esr := v } := h
theorem Inv.setMaclo (h : Inv u) (v : BitVec 32) : Inv { u with maclo := v } := h
theorem Inv.setMachi (h : Inv u) (v : BitVec 32) : Inv { u with machi := v } := h
theorem Inv.setFpmadd (h : Inv u) (a b : BitVec 32) : Inv { u with fpmaddhi := a, fpmaddlo := b } := h
theorem Inv.setVmachi (h : Inv u) (a : BitVec 64) : Inv { u with vmachi := a } := h
theorem Inv.setVmaclo (h : Inv u) (a : BitVec 64) : Inv { u with vmaclo := a } := h

theorem Inv.setResv (h : Inv u) (r : Option Nat) (hr : u.cfg.hasMmu = false → ∀ a, r = some a → a % 4 = 0) :
    Inv { u with resv := r } := by
  obtain ⟨h1, h2, h3, h4, h5, h6, h7, h8, h9, h10, h11, h12, h13, h14, h15, -⟩ := h
  exact ⟨h1, h2, h3, h4, h5, h6, h7, h8, h9, h10, h11, h12, h13, h14, h15, hr⟩

theorem Inv.setFpcsr (h : Inv u) (v : BitVec 32) (hv : v.toNat < 2 ^ 12) : Inv { u with fpcsr := v } := by
  obtain ⟨h1, h2, h3, h4, h5, h6, h7, -, h⟩ := h
  exact ⟨h1, h2, h3, h4, h5, h6, h7, hv, h⟩

theorem Inv.orFpcsr (h : Inv u) (fl : BitVec 9) : Inv { u with fpcsr := u.fpcsr ||| (fl ++ 0#3).setWidth 32 } := by
  refine h.setFpcsr _ ?_
  have h8 := h.2.2.2.2.2.2.2.1
  rw [BitVec.toNat_or]
  refine Nat.or_lt_two_pow h8 ?_
  rw [BitVec.toNat_setWidth]
  exact lt_of_le_of_lt (Nat.mod_le _ _) (fl ++ 0#3).isLt

theorem Inv.setEvbar (h : Inv u) (v : BitVec 32) (hv : v &&& 0x1FFF#32 = 0#32) : Inv { u with evbar := v } := by
  obtain ⟨h1, h2, h3, h4, -, h⟩ := h
  exact ⟨h1, h2, h3, h4, hv, h⟩

theorem Inv.setAecr (h : Inv u) (v : BitVec 32) (hv : v &&& ~~~(aecrBits u.cfg).setWidth 32 = 0#32) : Inv { u with aecr := v } := by
  obtain ⟨h1, h2, h3, h4, h5, -, h⟩ := h
  exact ⟨h1, h2, h3, h4, h5, hv, h⟩

theorem Inv.setAesr (h : Inv u) (v : BitVec 32) (hv : v &&& ~~~(aecrBits u.cfg).setWidth 32 = 0#32) : Inv { u with aesr := v } := by
  obtain ⟨h1, h2, h3, h4, h5, h6, -, h⟩ := h
  exact ⟨h1, h2, h3, h4, h5, h6, hv, h⟩

theorem Inv.setEpcr (h : Inv u) (v : BitVec 64) (hv : Narrow u v) : Inv { u with epcr := v } := by
  obtain ⟨h1, h2, h3, h4, h5, h6, h7, h8, h9, h10, h11, h12, -, h⟩ := h
  exact ⟨h1, h2, h3, h4, h5, h6, h7, h8, h9, h10, h11, h12, hv, h⟩

theorem Inv.setEear (h : Inv u) (v : BitVec 64) (hv : Narrow u v) : Inv { u with eear := v } := by
  obtain ⟨h1, h2, h3, h4, h5, h6, h7, h8, h9, h10, h11, h12, h13, -, h⟩ := h
  exact ⟨h1, h2, h3, h4, h5, h6, h7, h8, h9, h10, h11, h12, h13, hv, h⟩

/-- The pc and the pending target move. -/
theorem Inv.setPc (h : Inv u) (a : BitVec 64) (d : Option (BitVec 64)) (ha : Narrow u a) (hd : ∀ x, d = some x → Narrow u x)
    (hn : u.cfg.nd = true → d = none) : Inv { u with pc := a, ppc := u.pc, ds := d } := by
  obtain ⟨h1, h2, h3, h4, h5, h6, h7, h8, h9, h10, -, -, h13, h14, -, h16⟩ := h
  exact ⟨h1, h2, h3, h4, h5, h6, h7, h8, h9, ha, h10, hd, h13, h14, hn, h16⟩

theorem Inv.advance (h : Inv u) : Inv u.advance := by
  refine h.setPc u.nextPc none ?_ (by simp) (fun _ => rfl)
  unfold State.nextPc
  split
  · exact h.2.2.2.2.2.2.2.2.2.2.2.1 _ ‹_›
  · exact narrow_trunc _ _

theorem Inv.takeJump (h : Inv u) (x : BitVec 64) (hx : Narrow u x) : Inv (u.takeJump x) := by
  unfold State.takeJump
  split
  · exact h.setPc x u.ds hx h.2.2.2.2.2.2.2.2.2.2.2.1 h.2.2.2.2.2.2.2.2.2.2.2.2.2.2.1
  · exact h.setPc _ (some x) (narrow_trunc _ _) (by rintro _ ⟨⟩; exact hx) (fun k => absurd k ‹_›)

theorem Inv.storeDatum (h : Inv u) (pa n v : Nat) : Inv (storeDatum u pa n v) := by
  obtain ⟨h1, h2, h3, h4, h5, h6, h7, h8, h9, h10, h11, h12, h13, h14, h15, h16⟩ := h
  exact ⟨storeDatum_wf pa n v h1, h2, h3, h4, h5, h6, h7, h8, h9, h10, h11, h12, h13, h14, h15,
    fun hm r hr => h16 hm r (resvAfterWrite_some hr)⟩

theorem Inv.takeInput (h : Inv u) : Inv (takeInput u) := by
  obtain ⟨h1, h2, h3, h4, h5, h6, h7, h8, h9, h10, h11, h12, h13, h14, h15, h16⟩ := h
  exact ⟨takeInput_wf h1, h2, h3, h4, h5, h6, h7, h8, h9, h10, h11, h12, h13, h14, h15,
    fun hm r hr => h16 hm r (takeInput_resv_some hr)⟩

/-! ### Exception entry -/

theorem narrow_vectorAddr (u : State) (e : Exc) : Narrow u (vectorAddr u e) := by
  unfold vectorAddr
  refine narrow_setWidth (s := u) _ (lt_of_lt_of_le (BitVec.isLt _) (Nat.pow_le_pow_right (by norm_num) ?_))
  have := u.width_cases; omega

theorem narrow_resumeAddr (u : State) (e : Exc) : Narrow u (resumeAddr u e) := by
  unfold resumeAddr
  split
  · exact narrow_trunc _ _
  · split <;> exact narrow_trunc _ _

/-- The address an exception carries fits a register. -/
def Exc.narrow (u : State) (e : Exc) : Prop := Narrow u (eearAfter u e)

theorem entrySr_inv {c : Config} {v : BitVec 32} (b : Bool) (h1 : v &&& 0x0FFE0000#32 = 0#32) (h2 : v.getLsbD srFO = true)
    (h3 : refusedSr c v = false) :
    entrySr v b &&& 0x0FFE0000#32 = 0#32 ∧ (entrySr v b).getLsbD srFO = true ∧ refusedSr c (entrySr v b) = false := by
  refine ⟨?_, ?_, ?_⟩
  · unfold entrySr
    rw [setBit_and_of_false (by decide), setBit_and_of_false (by decide), setBit_and_of_false (by decide),
      setBit_and_of_false (by decide), setBit_and_of_false (by decide), setBit_and_of_false (by decide),
      setBit_and_of_false (by decide), h1]
  · rw [entrySr_bit]; exact h2
  · have hl : (entrySr v b).getLsbD srLEE = v.getLsbD srLEE := by rw [entrySr_bit]; rfl
    have hd : (entrySr v b).getLsbD srDCE = v.getLsbD srDCE := by rw [entrySr_bit]; rfl
    have hi : (entrySr v b).getLsbD srICE = v.getLsbD srICE := by rw [entrySr_bit]; rfl
    have hm : (entrySr v b).getLsbD srDME = false := by rw [entrySr_bit]; rfl
    have hn : (entrySr v b).getLsbD srIME = false := by rw [entrySr_bit]; rfl
    unfold refusedSr at h3 ⊢
    simp only [Bool.or_eq_false_iff, hl, hd, hi, hm, hn] at h3 ⊢
    exact ⟨h3.1, by simp⟩

theorem Inv.enter (h : Inv u) (e : Exc) (he : e.narrow u) : Inv (enter u e) := by
  obtain ⟨h1, h2, h3, h4, h5, h6, h7, h8, h9, h10, h11, h12, h13, h14, h15, h16⟩ := h
  obtain ⟨k1, k2, k3⟩ := entrySr_inv u.ds.isSome h2 h3 h4
  refine ⟨h1, k1, k2, k3, h5, h6, h7, h8, h9, ?_, ?_, ?_, ?_, ?_, fun _ => enter_ds u e, ?_⟩
  · rw [enter_pc]; exact (narrow_vectorAddr u e).congr (enter_cfg u e)
  · rw [enter_ppc]; exact h10.congr (enter_cfg u e)
  · rw [enter_ds]; simp
  · rw [enter_epcr]; exact (narrow_resumeAddr u e).congr (enter_cfg u e)
  · rw [enter_eear]; exact Narrow.congr he (enter_cfg u e)
  · rw [enter_resv]; simp

/-- An exception that carries no address of its own, from a state of the invariant. -/
theorem Inv.excNarrow (h : Inv u) (e : Exc) (he : eearAfter u e = u.eear ∨ eearAfter u e = u.pc) : e.narrow u := by
  unfold Exc.narrow
  rcases he with he | he <;> rw [he]
  · exact h.2.2.2.2.2.2.2.2.2.2.2.2.2.1
  · exact h.2.2.2.2.2.2.2.2.2.1

/-! ### Outcomes -/

theorem keeps_next (h : Inv u) : Keeps u.cfg (.next u) := by rintro t ⟨⟩; exact ⟨h, rfl⟩

theorem keeps_refused (c : Config) (r : Refusal) : Keeps c (.refused r) := by rintro t ⟨⟩

theorem keeps_finish (h : Inv u) : Keeps u.cfg (finish u) := keeps_next h.advance

/-- Raising an exception whose address fits a register, under either reading of R517. -/
theorem keeps_raiseNarrow (h : Inv u) (e : Exc) (he : e.narrow u) : Keeps u.cfg (raise u e) := by
  intro t ht
  rw [raise_next ht]
  exact ⟨h.enter e he, rfl⟩

theorem keeps_raise (h : Inv u) (e : Exc) (he : eearAfter u e = u.eear ∨ eearAfter u e = u.pc) : Keeps u.cfg (raise u e) :=
  keeps_raiseNarrow h e (h.excNarrow e he)

theorem eearAfter_illegal (u : State) :
    eearAfter u .illegalInstruction = u.eear ∨ eearAfter u .illegalInstruction = u.pc := by
  have : eearAfter u .illegalInstruction = if u.cfg.illegalEear then u.pc else u.eear := rfl
  rw [this]; split
  · exact .inr rfl
  · exact .inl rfl

theorem keeps_illegal (h : Inv u) : Keeps u.cfg (raise u .illegalInstruction) := keeps_raise h _ (eearAfter_illegal u)

theorem keeps_whenPresent (h : Inv u) (p : Bool) {k : Outcome} (hk : p = true → Keeps u.cfg k) :
    Keeps u.cfg (whenPresent p u k) := by
  unfold whenPresent; split
  · exact hk ‹_›
  · exact keeps_illegal h

theorem keeps_outsideSlot (c : Config) (s : State) {k : Outcome} (hk : Keeps c k) : Keeps c (outsideSlot s k) := by
  unfold outsideSlot; split
  · exact keeps_refused _ _
  · exact hk

theorem keeps_privileged (h : Inv u) {a k : Outcome} (ha : Keeps u.cfg a) (hk : Keeps u.cfg k) :
    Keeps u.cfg (privileged u a k) := by
  unfold privileged; split
  · exact hk
  · split
    · exact keeps_illegal h
    · exact ha
    · exact keeps_refused _ _

theorem and_compl_or {n : Nat} {a b m : BitVec n} (ha : a &&& ~~~m = 0#n) (hb : b &&& ~~~m = 0#n) : (a ||| b) &&& ~~~m = 0#n := by
  rw [show (a ||| b) &&& ~~~m = (a &&& ~~~m) ||| (b &&& ~~~m) by
    apply BitVec.eq_of_getLsbD_eq; intro j _; simp only [BitVec.getLsbD_and, BitVec.getLsbD_or, Bool.and_or_distrib_right], ha, hb]
  simp

theorem keeps_arithEvent (h : Inv u) (ev : BitVec 7) : Keeps u.cfg (arithEvent u ev) := by
  unfold arithEvent
  simp only
  split
  · split
    · rename_i ha
      refine keeps_raise (u := { u with aesr := u.aesr ||| (ev &&& rangeControl u).setWidth 32 }) (h.setAesr _ ?_) .range (.inl rfl)
      refine and_compl_or h.2.2.2.2.2.2.1 ?_
      have h6 := h.2.2.2.2.2.1
      apply BitVec.eq_of_getLsbD_eq
      intro j hj
      have hb : (u.aecr &&& ~~~(aecrBits u.cfg).setWidth 32).getLsbD j = false := by rw [h6]; simp
      simp only [BitVec.getLsbD_and, BitVec.getLsbD_setWidth, rangeControl, if_pos ha] at hb ⊢
      by_cases hk : j < 7
      · cases hx : u.aecr.getLsbD j
        · simp
        · rw [hx, Bool.true_and] at hb; rw [hb]; simp
      · rw [BitVec.getLsbD_of_ge ev j (by omega)]; simp
    · exact keeps_raise h .range (.inl rfl)
  · exact keeps_finish h

/-- A checked access that fails raises an exception with an address that fits a register. -/
theorem keeps_accessError (h : Inv u) {k : AccessKind} {n : Nat} {ea : BitVec 64} {e : Exc} (he : access u k n ea = .error e)
    (hea : Narrow u ea) : Keeps u.cfg (raise u e) := by
  refine keeps_raiseNarrow h e ?_
  unfold Exc.narrow
  unfold access at he
  split at he
  · cases he; exact hea
  · split at he
    · cases he; cases k <;> exact hea
    · cases he; cases k <;> exact hea
    · split at he
      · cases he
      · cases he; exact hea

theorem narrow_effectiveAddr (u : State) (r : RegNum) (imm : BitVec 16) : Narrow u (effectiveAddr u r imm) :=
  narrow_setWidth (s := u) _ (BitVec.isLt _)

theorem keeps_loadOp (h : Inv u) (n : Nat) (sign : Bool) (rD rA : RegNum) (imm : BitVec 16) :
    Keeps u.cfg (loadOp n sign u rD rA imm) := by
  unfold loadOp
  split
  · exact keeps_accessError h ‹_› (narrow_effectiveAddr _ _ _)
  · exact keeps_finish (h.setReg_width _ _ le_rfl)

theorem keeps_storeOp (h : Inv u) (n : Nat) (rA rB : RegNum) (imm : BitVec 16) : Keeps u.cfg (storeOp n u rA rB imm) := by
  unfold storeOp
  split
  · exact keeps_accessError h ‹_› (narrow_effectiveAddr _ _ _)
  · exact keeps_finish (h.storeDatum _ _ _)

/-- Without an MMU an address is its own translation (R79). -/
theorem translate_noMmu {k : AccessKind} {ea : BitVec 64} (h : u.cfg.hasMmu = false) : translate u k ea = .to ea.toNat := by
  unfold translate; cases k <;> simp [h]

theorem writtenSr_inv {c : Config} {v : BitVec 32} (h : refusedSr c v = false) :
    writtenSr v &&& 0x0FFE0000#32 = 0#32 ∧ (writtenSr v).getLsbD srFO = true ∧ refusedSr c (writtenSr v) = false := by
  refine ⟨?_, by rw [writtenSr_bit]; rfl, ?_⟩
  · have hm : (0xF0017FFF#32 &&& 0x0FFE0000#32) = 0#32 := by decide
    have ho : (0x00008000#32 &&& 0x0FFE0000#32) = 0#32 := by decide
    apply BitVec.eq_of_getLsbD_eq; intro j _
    have h1 : (0xF0017FFF#32 &&& 0x0FFE0000#32).getLsbD j = false := by rw [hm]; simp
    have h2 : (0x00008000#32 &&& 0x0FFE0000#32).getLsbD j = false := by rw [ho]; simp
    rw [BitVec.getLsbD_and] at h1 h2
    rw [writtenSr, BitVec.getLsbD_and, BitVec.getLsbD_or, BitVec.getLsbD_and, Bool.and_or_distrib_right, Bool.and_assoc, h1, h2]
    simp
  · rw [refusedSr_congr (v := v), h]
    intro j hj
    simp only [List.mem_cons, List.not_mem_nil, or_false, srLEE, srDCE, srICE, srDME, srIME] at hj
    rw [writtenSr_bit, srFO, if_neg (by omega), if_neg (by omega), if_pos (by omega)]

theorem and_mask_compl {n : Nat} (v m : BitVec n) : (v &&& m) &&& ~~~m = 0#n := by
  rw [BitVec.and_assoc]; simp

theorem setWidth32_narrow (v : BitVec 32) : Narrow u (v.setWidth 64) := by
  refine narrow_setWidth (s := u) v (lt_of_lt_of_le v.isLt (Nat.pow_le_pow_right (by norm_num) ?_))
  have := u.width_cases; omega

theorem Inv.writeSpr (h : Inv u) {r : Spr} {v : BitVec 32} {t : State} (he : writeSpr u r v = .ok t) : Inv t ∧ t.cfg = u.cfg := by
  have h32 : 32 ≤ u.width := by have := u.width_cases; omega
  cases r <;> simp only [Machine.writeSpr] at he
  case sr =>
    split at he
    · cases he
    · cases he
      obtain ⟨k1, k2, k3⟩ := writtenSr_inv (c := u.cfg) (v := v) (by rw [← Bool.not_eq_true]; assumption)
      exact ⟨h.setSr k1 k2 k3, rfl⟩
  case npc => cases he
  all_goals (cases he; refine ⟨?_, rfl⟩)
  case evbar =>
    refine h.setEvbar _ ?_
    rw [BitVec.and_assoc]
    have : (0xFFFFE000#32 &&& 0x1FFF#32) = 0#32 := by decide
    rw [this]; simp
  case aecr => exact h.setAecr _ (and_mask_compl _ _)
  case aesr => exact h.setAesr _ (and_mask_compl _ _)
  case fpcsr =>
    refine h.setFpcsr _ ?_
    rw [BitVec.toNat_and]
    exact lt_of_le_of_lt Nat.and_le_right (by decide)
  case epcr => exact h.setEpcr _ (setWidth32_narrow v)
  case eear => exact h.setEear _ (setWidth32_narrow v)
  case esr => exact h.setEsr v
  case gpr r => exact h.setReg_width r v h32
  case maclo => exact h.setMaclo v
  case machi => exact h.setMachi v
  all_goals exact h

theorem keeps_returnFromException (h : Inv u) : Keeps u.cfg (returnFromException u) := by
  unfold returnFromException
  split
  · exact keeps_refused _ _
  · obtain ⟨k1, k2, k3⟩ := writtenSr_inv (c := u.cfg) (v := u.esr) (by rw [← Bool.not_eq_true]; assumption)
    exact keeps_next (((h.setPc u.epcr none h.2.2.2.2.2.2.2.2.2.2.2.2.1 (by simp) (fun _ => rfl)).setSr k1 k2 k3).setResv none (by simp))

/-! ### Custom instructions -/

/-- A write of a special register that succeeds, or that no register is there to take. -/
theorem Inv.sprWrite (h : Inv u) {a : BitVec 16} {v : BitVec 32} {t : State} (he : sprWrite u a v = .ok t) :
    Inv t ∧ t.cfg = u.cfg := by
  unfold Machine.sprWrite at he
  split at he
  · exact h.writeSpr he
  · cases he; exact ⟨h, rfl⟩

/-- One thing a custom instruction does keeps the invariant, if what follows does. -/
theorem keeps_customWrite (h : Inv u) (x : CustomWrite) {k : State → Outcome}
    (hk : ∀ t, Inv t → t.cfg = u.cfg → Keeps u.cfg (k t)) : Keeps u.cfg (customWrite u x k) := by
  cases x <;> simp only [customWrite]
  case reg r v => exact hk _ (h.setReg_width _ _ le_rfl) rfl
  case flagF b => exact hk _ (h.setFlag _ _ (.inl rfl)) rfl
  case flagCY b => exact hk _ (h.setFlag _ _ (.inr (.inl rfl))) rfl
  case flagOV b => exact hk _ (h.setFlag _ _ (.inr (.inr rfl))) rfl
  case acc v => exact hk _ (h.setAcc v) rfl
  case fpFlags fl => exact hk _ (h.orFpcsr fl) rfl
  case fpmadd v => exact hk _ (h.setFpmadd _ _) rfl
  case vmac hi lo => exact hk _ ((h.setVmachi hi).setVmaclo lo) rfl
  case spr a v =>
    unfold privileged
    split
    · split
      · rename_i t ht
        exact hk t (h.sprWrite ht).1 (h.sprWrite ht).2
      · exact keeps_refused _ _
    · split
      · exact keeps_illegal h
      · exact hk u h rfl
      · exact keeps_refused _ _
  case load ea size =>
    split
    · exact hk u h rfl
    · exact keeps_accessError h ‹_› (narrow_trunc u ea)
  case store ea size v =>
    split
    · exact hk _ (h.storeDatum _ _ _) rfl
    · exact keeps_accessError h ‹_› (narrow_trunc u ea)

theorem keeps_customEnd (h : Inv u) (e : CustomEnd) : Keeps u.cfg (customEnd u e) := by
  cases e <;> simp only [customEnd]
  case advance => exact keeps_finish h
  case jump x =>
    unfold outsideSlot
    split
    · exact keeps_refused _ _
    · have := keeps_next (h.takeJump (u.trunc x) (narrow_trunc u x))
      rwa [State.takeJump_cfg] at this
  case raise x =>
    cases x
    · exact keeps_illegal h
    all_goals exact keeps_raise h _ (.inl rfl)

theorem keeps_customRun (ws : List CustomWrite) (e : CustomEnd) : ∀ u, Inv u → Keeps u.cfg (customRun ws e u) := by
  induction ws with
  | nil => exact fun u h => keeps_customEnd h e
  | cons x rest ih => exact fun u h => keeps_customWrite h x fun t ht hc => hc ▸ ih t ht

/-- Whatever `CustomSem` is, a custom instruction keeps the invariant (R114). -/
theorem keeps_customOp (h : Inv u) (x : InsnWord) : Keeps u.cfg (customOp x u) := by
  unfold customOp
  split
  · exact keeps_refused _ _
  · exact keeps_illegal h
  · exact keeps_finish h
  · exact keeps_finish (h.setReg_width _ _ le_rfl)
  · unfold customAct
    split
    · exact keeps_refused _ _
    · exact keeps_customRun _ _ u h

theorem resetSr_inv (c : Config) :
    resetSr c &&& 0x0FFE0000#32 = 0#32 ∧ (resetSr c).getLsbD srFO = true ∧ refusedSr c (resetSr c) = false := by
  unfold resetSr
  cases c.resetEph
  · refine ⟨by decide, by decide, ?_⟩
    have h : (0x00008001#32).getLsbD srDME = false ∧ (0x00008001#32).getLsbD srIME = false := by decide
    simp only [Bool.false_eq_true, if_false, refusedSr, h.1, h.2]
    simp; decide
  · refine ⟨by decide, by decide, ?_⟩
    have h : (0x0000C001#32).getLsbD srDME = false ∧ (0x0000C001#32).getLsbD srIME = false := by decide
    simp only [if_true, refusedSr, h.1, h.2]
    simp; decide

theorem narrow_resetPc (u : State) (c : Config) : Narrow u (resetPc c) := by
  unfold resetPc
  refine narrow_setWidth (s := u) _ (lt_of_lt_of_le (BitVec.isLt _) (Nat.pow_le_pow_right (by norm_num) ?_))
  have := u.width_cases; omega

/-- The state after reset, under every configuration. -/
theorem resetWith_inv (c : Config) : Inv (resetWith c) := by
  obtain ⟨k1, k2, k3⟩ := resetSr_inv c
  have hz : Narrow (resetWith c) unspecifiedReset := by simp [Narrow, unspecifiedReset]
  refine ⟨rfl, k1, k2, k3, resetEvbar_low c, by simp, by simp, by simp, fun r => ?_, narrow_resetPc _ c, hz, by simp, hz, hz,
    fun _ => rfl, by simp⟩
  have : (resetWith c).regs.get r = unspecifiedReset := by simp [Vector.get_eq_getElem]
  rw [this]; exact hz

/-- A reset in the middle of a run. -/
theorem warmReset_inv (h : Inv u) : Inv (warmReset u) := by
  obtain ⟨k1, k2, k3⟩ := resetSr_inv u.cfg
  have hf : ∀ i, Narrow (warmReset u) (u.resetFree i) := fun i =>
    (narrow_trunc u (Config.freeWord (u.draws + i))).congr (warmReset_cfg u)
  have hp : Narrow (warmReset u) u.pc := h.2.2.2.2.2.2.2.2.2.1.congr (warmReset_cfg u)
  unfold Inv
  simp only [warmReset_mem, warmReset_sr, State.srBit, warmReset_cfg, warmReset_evbar, warmReset_aecr, warmReset_aesr, warmReset_fpcsr,
    warmReset_regs, warmReset_pc, warmReset_ppc, warmReset_ds, warmReset_epcr, warmReset_eear, warmReset_resv]
  refine ⟨h.1, k1, k2, k3, resetEvbar_low _, by simp, by simp, by simp, fun r => ?_, narrow_resetPc _ _, hp, by simp, hf _, hf _,
    by simp, by simp⟩
  simpa [Vector.get_eq_getElem] using hf r

end Sys2Proof.Machine
end

