-- ==== Sys2Proof/Laws/Float.lean ====
section
/-! SUPPORT. Floating-point patterns: the bounds of every result, and what follows a result. -/

namespace Sys2Proof.Machine

/-- The two formats, and what the arithmetic needs of them. -/
structure FpFormat.Ok (f : FpFormat) : Prop where
  frac_pos : 0 < f.frac
  width_pos : 0 < f.width
  emax_pos : 1 < f.emax
  width_eq : 2 ^ (f.width - 1) = (f.emax + 1) * 2 ^ f.frac

theorem fpSingle_ok : fpSingle.Ok := ⟨by decide, by decide, by decide, by decide⟩
theorem fpDouble_ok : fpDouble.Ok := ⟨by decide, by decide, by decide, by decide⟩

variable {f : FpFormat}

theorem FpFormat.Ok.pow_width (h : f.Ok) : 2 ^ f.width = 2 * 2 ^ (f.width - 1) := by
  have := h.width_pos
  rw [← pow_succ']; congr 1; omega

theorem FpFormat.Ok.pow_frac (h : f.Ok) : 2 ^ f.frac = 2 * 2 ^ (f.frac - 1) := by
  have := h.frac_pos
  rw [← pow_succ']; congr 1; omega

theorem FpFormat.Ok.infMag_lt (h : f.Ok) : fpInfMag f < 2 ^ (f.width - 1) := by
  rw [fpInfMag, h.width_eq]
  exact Nat.mul_lt_mul_of_pos_right (by omega) (by positivity)

theorem fpPattern_lt (h : f.Ok) (neg : Bool) {mag : Nat} (hm : mag < 2 ^ (f.width - 1)) : fpPattern f neg mag < 2 ^ f.width := by
  rw [fpPattern, h.pow_width]; split <;> omega

theorem freeNan_mag_lt (h : f.Ok) (x : Nat) : fpInfMag f + 2 ^ (f.frac - 1) + x % 2 ^ (f.frac - 1) < 2 ^ (f.width - 1) := by
  have h1 := Nat.mod_lt x (Nat.two_pow_pos (f.frac - 1))
  rw [fpInfMag, h.width_eq, Nat.add_mul, one_mul, h.pow_frac]
  omega

theorem freeNan_lt (h : f.Ok) (free : BitVec 64) : freeNan f free < 2 ^ f.width := fpPattern_lt h _ (freeNan_mag_lt h _)

theorem fpRound_lt (h : f.Ok) (ta : Bool) (rm : Rounding) (neg : Bool) (num den : Nat) :
    (fpRound f ta rm neg num den).bits < 2 ^ f.width := by
  have := h.infMag_lt
  unfold fpRound
  simp only
  split
  · refine fpPattern_lt h _ ?_; split <;> omega
  · exact fpPattern_lt h _ (by omega)

theorem fpNegate_lt (h : f.Ok) (x : Nat) : fpNegate f x < 2 ^ f.width := fpPattern_lt h _ (Nat.mod_lt _ (by positivity))

/-- Every result fits the format. -/
theorem fpAdd_lt (h : f.Ok) (c : Config) (rm : Rounding) (free : BitVec 64) {a b : Nat} (ha : a < 2 ^ f.width)
    (hb : b < 2 ^ f.width) : (fpAdd f c rm free a b).bits < 2 ^ f.width := by
  have hz : 0 < 2 ^ (f.width - 1) := by positivity
  unfold fpAdd
  simp only
  repeat' split
  all_goals first
    | exact freeNan_lt h free | exact ha | exact hb | exact fpPattern_lt h _ hz | exact fpRound_lt h _ _ _ _ _

theorem fpSub_lt (h : f.Ok) (c : Config) (rm : Rounding) (free : BitVec 64) {a b : Nat} (ha : a < 2 ^ f.width)
    (_ : b < 2 ^ f.width) : (fpSub f c rm free a b).bits < 2 ^ f.width := fpAdd_lt h c rm free ha (fpNegate_lt h b)

theorem fpMul_lt (h : f.Ok) (c : Config) (rm : Rounding) (free : BitVec 64) {a b : Nat} (_ : a < 2 ^ f.width)
    (_ : b < 2 ^ f.width) : (fpMul f c rm free a b).bits < 2 ^ f.width := by
  have hz : 0 < 2 ^ (f.width - 1) := by positivity
  unfold fpMul
  simp only
  repeat' split
  all_goals first
    | exact freeNan_lt h free | exact fpPattern_lt h _ hz | exact fpPattern_lt h _ h.infMag_lt | exact fpRound_lt h _ _ _ _ _

theorem fpDiv_lt (h : f.Ok) (c : Config) (rm : Rounding) (free : BitVec 64) {a b : Nat} (_ : a < 2 ^ f.width)
    (_ : b < 2 ^ f.width) : (fpDiv f c rm free a b).bits < 2 ^ f.width := by
  have hz : 0 < 2 ^ (f.width - 1) := by positivity
  unfold fpDiv
  simp only
  repeat' split
  all_goals first
    | exact freeNan_lt h free | exact fpPattern_lt h _ hz | exact fpPattern_lt h _ h.infMag_lt | exact fpRound_lt h _ _ _ _ _

theorem fpRem_lt (h : f.Ok) (c : Config) (rm : Rounding) (free : BitVec 64) {a b : Nat} (ha : a < 2 ^ f.width)
    (_ : b < 2 ^ f.width) : (fpRem f c rm free a b).bits < 2 ^ f.width := by
  have hz : 0 < 2 ^ (f.width - 1) := by positivity
  unfold fpRem
  simp only
  repeat' split
  all_goals first
    | exact freeNan_lt h free | exact ha | exact fpPattern_lt h _ hz | exact fpRound_lt h _ _ _ _ _

theorem fpOfInt_lt (h : f.Ok) (c : Config) (rm : Rounding) (i : Int) : (fpOfInt f c rm i).bits < 2 ^ f.width := by
  unfold fpOfInt
  split
  · exact Nat.two_pow_pos _
  · exact fpRound_lt h _ _ _ _ _

theorem fpToInt_lt (rm : Rounding) (free : BitVec 64) (a : Nat) : (fpToInt f rm free a).bits < 2 ^ f.width := by
  unfold fpToInt
  simp only
  split <;> split
  all_goals first
    | exact Nat.mod_lt _ (Nat.two_pow_pos _) | exact BitVec.isLt _

theorem withClass_bits (c : Config) (r : FpResult) : (withClass f c r).bits = r.bits := by
  unfold withClass; split <;> rfl

theorem withClass_drew (c : Config) (r : FpResult) : (withClass f c r).drew = r.drew := by
  unfold withClass; split <;> rfl

theorem withClass_flags (c : Config) (r : FpResult) :
    (withClass f c r).flags = if c.fpClassFlags then r.flags ||| classFlags f r.bits else r.flags := by
  unfold withClass; split <;> rfl

theorem fpIeee_lt (h : f.Ok) (o : FpOp) (c : Config) (rm : Rounding) (free : BitVec 64) {a b : Nat} (ha : a < 2 ^ f.width)
    (hb : b < 2 ^ f.width) : (fpIeee o f c rm free a b).bits < 2 ^ f.width := by
  cases o <;> simp only [fpIeee, withClass_bits]
  · exact fpAdd_lt h c rm free ha hb
  · exact fpSub_lt h c rm free ha hb
  · exact fpMul_lt h c rm free ha hb
  · exact fpDiv_lt h c rm free ha hb
  · exact fpRem_lt h c rm free ha hb
  · exact fpOfInt_lt h c rm _
  · exact fpToInt_lt rm free a

/-- Every result of the record fits the format. -/
theorem fpApply_lt (h : f.Ok) (o : FpOp) (c : Config) (fpcsr : BitVec 32) (free : BitVec 64) {a b : Nat} (ha : a < 2 ^ f.width)
    (hb : b < 2 ^ f.width) : (fpApply o f c fpcsr free a b).bits < 2 ^ f.width := by
  unfold fpApply
  split
  · exact fpIeee_lt h o c _ free ha hb
  · exact Nat.mod_lt _ (Nat.two_pow_pos _)

theorem fpApply_ieee {c : Config} (hc : c.fp = .ieee) (o : FpOp) (fpcsr : BitVec 32) (free : BitVec 64) (a b : Nat) :
    fpApply o f c fpcsr free a b = fpIeee o f c (roundingOf fpcsr) free a b := by simp only [fpApply, hc]

theorem fpApply_other {c : Config} {k : Nat} (hc : c.fp = .other k) (o : FpOp) (fpcsr : BitVec 32) (free : BitVec 64) (a b : Nat) :
    fpApply o f c fpcsr free a b = fpOther k o f c fpcsr a b := by simp only [fpApply, hc]

theorem fpOrder_ieee {c : Config} (hc : c.fp = .ieee) (a b : Nat) : fpOrder f c a b = fpCompare f a b := by
  simp only [fpOrder, hc]

theorem fpOrder_other {c : Config} {k : Nat} (hc : c.fp = .other k) (a b : Nat) :
    fpOrder f c a b = Config.fpOrder k f.width (BitVec.ofNat 64 a) (BitVec.ofNat 64 b) := by simp only [fpOrder, hc]

theorem flagIf_bit (b : Bool) (fl : BitVec 9) (k : Nat) : (flagIf b fl).getLsbD k = (b && fl.getLsbD k) := by
  cases b <;> simp [flagIf]

/-- The class flags, bit by bit (R56, R300). -/
theorem classFlags_bit (f : FpFormat) (v k : Nat) : (classFlags f v).getLsbD k = true ↔ FpClass f v k := by
  have hp : 0 < 2 ^ (f.frac - 1) := Nat.two_pow_pos _
  have hs : fpIsSnan f v = true ↔ fpExp f v = f.emax ∧ 0 < fpFrac f v ∧ fpFrac f v < 2 ^ (f.frac - 1) := by
    simp only [fpIsSnan, fpIsNan, Bool.and_eq_true, beq_iff_eq, bne_iff_ne, Nat.div_eq_zero_iff]
    omega
  have hq : (fpIsNan f v && !fpIsSnan f v) = true ↔ fpExp f v = f.emax ∧ 2 ^ (f.frac - 1) ≤ fpFrac f v := by
    rw [Bool.and_eq_true, Bool.not_eq_true', ← Bool.not_eq_true, hs]
    simp only [fpIsNan, Bool.and_eq_true, beq_iff_eq, bne_iff_ne]
    omega
  have hz : fpIsZero f v = true ↔ fpExp f v = 0 ∧ fpFrac f v = 0 := by simp [fpIsZero]
  have hi : fpIsInf f v = true ↔ fpExp f v = f.emax ∧ fpFrac f v = 0 := by simp [fpIsInf]
  have hf : ∀ (b : Bool) (fl : BitVec 9), (flagIf b fl).getLsbD k = true ↔ b = true ∧ fl.getLsbD k = true := fun b fl => by
    rw [flagIf_bit, Bool.and_eq_true]
  rw [classFlags, BitVec.getLsbD_or, BitVec.getLsbD_or, BitVec.getLsbD_or, Bool.or_eq_true, Bool.or_eq_true, Bool.or_eq_true, hf, hf, hf, hf,
    hs, hq, hz, hi, FpClass]
  have hb : ∀ (n : Nat) (x : BitVec 9), x.toNat = 2 ^ n → (x.getLsbD k = true ↔ k = n) := by
    intro n x hx
    rw [BitVec.getLsbD, hx, Nat.testBit_two_pow, decide_eq_true_eq, eq_comm]
  rw [hb 2 flSNF (by decide), hb 3 flQNF (by decide), hb 4 flZF (by decide), hb 7 flINF (by decide), or_assoc, or_assoc]
  exact or_congr and_comm (or_congr and_comm (or_congr and_comm and_comm))

theorem fpOperand_lt (f : FpFormat) (s : State) (r : RegNum) : fpOperand f s r < 2 ^ f.width := Nat.mod_lt _ (Nat.two_pow_pos _)

/-! ### What follows a result -/

variable {s : State} {i : Instr}

/-- The state an arithmetic floating-point instruction leaves before the exception or the advance (R301, R302). -/
def fpWritten (s : State) (rD : RegNum) (r : FpResult) : State :=
  let t := s.setReg rD (BitVec.ofNat 64 r.bits)
  let u := if r.drew then t.spend else t
  { u with fpcsr := u.fpcsr ||| (r.flags ++ 0#3).setWidth 32 }

@[simp] theorem fpWritten_cfg (s : State) (rD : RegNum) (r : FpResult) : (fpWritten s rD r).cfg = s.cfg := by
  unfold fpWritten; simp only; split <;> rfl
@[simp] theorem fpWritten_pc (s : State) (rD : RegNum) (r : FpResult) : (fpWritten s rD r).pc = s.pc := by
  unfold fpWritten; simp only; split <;> rfl
@[simp] theorem fpWritten_ds (s : State) (rD : RegNum) (r : FpResult) : (fpWritten s rD r).ds = s.ds := by
  unfold fpWritten; simp only; split <;> rfl
@[simp] theorem fpWritten_eear (s : State) (rD : RegNum) (r : FpResult) : (fpWritten s rD r).eear = s.eear := by
  unfold fpWritten; simp only; split <;> rfl
@[simp] theorem fpWritten_regs (s : State) (rD : RegNum) (r : FpResult) :
    (fpWritten s rD r).regs = (s.setReg rD (BitVec.ofNat 64 r.bits)).regs := by
  unfold fpWritten; simp only; split <;> rfl
@[simp] theorem fpWritten_fpcsr (s : State) (rD : RegNum) (r : FpResult) :
    (fpWritten s rD r).fpcsr = s.fpcsr ||| (r.flags ++ 0#3).setWidth 32 := by
  unfold fpWritten; simp only; split <;> rfl

theorem fpResult_eq (s : State) (rD : RegNum) (r : FpResult) :
    fpResult s rD r =
      if s.fpcsr.getLsbD 0 && r.flags != 0#9 then raise (fpWritten s rD r) .floatingPoint else finish (fpWritten s rD r) := by
  unfold fpResult fpDone fpWritten
  simp only
  split <;> rfl

theorem fpWritten_frame (s : State) (rD : RegNum) (r : FpResult) : Frame [.reg rD, .fpcsr, .draws] s (fpWritten s rD r) := by
  unfold fpWritten
  simp only
  split
  · exact ((((Frame.refl _ s).setReg rD _ (by simp)).spend (by simp)).setFpcsr _ (by simp))
  · exact (((Frame.refl _ s).setReg rD _ (by simp)).setFpcsr _ (by simp))

/-- Where no free value was used, the count of them stands. -/
theorem fpWritten_frame_exact (s : State) (rD : RegNum) (r : FpResult) (h : r.drew = false) :
    Frame [.reg rD, .fpcsr] s (fpWritten s rD r) := by
  unfold fpWritten
  simp only [h, Bool.false_eq_true, if_false]
  exact (((Frame.refl _ s).setReg rD _ (by simp)).setFpcsr _ (by simp))

theorem flagBits_toNat (fl : BitVec 9) : ((fl ++ 0#3).setWidth 32 : BitVec 32).toNat = fl.toNat * 8 := by
  have := fl.isLt
  rw [BitVec.toNat_setWidth, BitVec.toNat_append, Nat.shiftLeft_eq, BitVec.toNat_ofNat, Nat.zero_mod, Nat.or_zero]
  omega

theorem fpWritten_fpcsr_toNat (s : State) (rD : RegNum) (r : FpResult) :
    (fpWritten s rD r).fpcsr.toNat = (s.fpcsr.toNat ||| r.flags.toNat * 8) := by
  rw [fpWritten_fpcsr, BitVec.toNat_or, flagBits_toNat]

theorem fpWritten_uval (s : State) (rD : RegNum) (r : FpResult) {n : Nat} (h : r.bits < 2 ^ n) (hn : n ≤ s.width) :
    (fpWritten s rD r).uval rD = r.bits := by
  have hw := s.width_le
  have h1 : r.bits < 2 ^ s.width := lt_of_lt_of_le h (Nat.pow_le_pow_right (by norm_num) hn)
  have h2 : r.bits < 2 ^ 64 := lt_of_lt_of_le h1 (Nat.pow_le_pow_right (by norm_num) hw)
  rw [State.uval_congr (s := s.setReg rD (BitVec.ofNat 64 r.bits)) (fpWritten_cfg s rD r) (fpWritten_regs s rD r),
    State.uval_setReg, if_pos rfl, BitVec.toNat_ofNat, Nat.mod_eq_of_lt h2, Nat.mod_eq_of_lt h1]

/-- All that an instruction ending in `fpDone` does, `u` being where its effect is written (R302). -/
theorem fpEnds_of_exec {u : State} {fl : BitVec 9} {w : List Part} {post : State → Prop} (he : exec i s = fpDone u fl)
    (hf : Frame w s { u with fpcsr := u.fpcsr ||| (fl ++ 0#3).setWidth 32 }) (hpc : u.pc = s.pc) (hds : u.ds = s.ds)
    (heear : u.eear = s.eear) (hfp : u.fpcsr = s.fpcsr) (hpost : ∀ t : State, t.cfg = u.cfg → t.regs = u.regs → post t) :
    FpEnds i s w fl post := by
  have hbits : (u.fpcsr ||| (fl ++ 0#3).setWidth 32).toNat = (s.fpcsr.toNat ||| fl.toNat * 8) := by
    rw [BitVec.toNat_or, flagBits_toNat, hfp]
  unfold fpDone at he
  simp only [hfp] at he
  rw [hfp] at hf hbits
  refine ⟨fun h => ?_, fun h1 h2 => ?_⟩
  · rw [if_neg (by rcases h with h | h <;> rw [h] <;> simp)] at he
    exact completes_finish he hf hpc hds ⟨hpost _ rfl rfl, hbits⟩
  · rw [if_pos (by rw [h1]; simpa using h2)] at he
    refine ⟨_, hf, hpc, hds, ⟨hpost _ rfl rfl, hbits⟩, ?_⟩
    rw [he, ← heear]
    exact raisedIn_raise { u with fpcsr := s.fpcsr ||| (fl ++ 0#3).setWidth 32 } .floatingPoint

/-- All that an instruction ending in `fpResult` does (R301, R302). -/
theorem fpOutcome_of_exec {i : Instr} {rD : RegNum} {r : FpResult} {w : List Part} {n : Nat}
    (he : exec i s = fpResult s rD r) (hf : Frame w s (fpWritten s rD r)) (hb : r.bits < 2 ^ n) (hn : n ≤ s.width) :
    FpOutcome i s rD w r.bits r.flags := by
  have hreg : ∀ (u : State), u.cfg = (s.setReg rD (BitVec.ofNat 64 r.bits)).cfg → u.regs = (s.setReg rD (BitVec.ofNat 64 r.bits)).regs →
      ∀ t : State, t.cfg = u.cfg → t.regs = u.regs → t.uval rD = r.bits := by
    intro u h1 h2 t h3 h4
    rw [State.uval_congr (s := fpWritten s rD r) (by rw [h3, h1, fpWritten_cfg]; rfl) (by rw [h4, h2, fpWritten_regs]),
      fpWritten_uval s rD r hb hn]
  refine fpEnds_of_exec he hf ?_ ?_ ?_ ?_ (hreg _ ?_ ?_) <;> (split <;> rfl)

theorem keeps_fpResult (h : Inv s) (rD : RegNum) (r : FpResult) {n : Nat} (hb : r.bits < 2 ^ n) (hn : n ≤ s.width) :
    Keeps s.cfg (fpResult s rD r) := by
  have hw := s.width_le
  have h1 : r.bits < 2 ^ s.width := lt_of_lt_of_le hb (Nat.pow_le_pow_right (by norm_num) hn)
  have h2 : r.bits < 2 ^ 64 := lt_of_lt_of_le h1 (Nat.pow_le_pow_right (by norm_num) hw)
  have hr : Inv (s.setReg rD (BitVec.ofNat 64 r.bits)) :=
    h.setReg rD _ (by rw [BitVec.toNat_ofNat, Nat.mod_eq_of_lt h2]; exact h1)
  have hi : Inv (fpWritten s rD r) := by
    unfold fpWritten
    simp only
    split
    · exact hr.spend.orFpcsr r.flags
    · exact hr.orFpcsr r.flags
  rw [fpResult_eq, ← fpWritten_cfg s rD r]
  split
  · exact keeps_raise hi .floatingPoint (.inl rfl)
  · exact keeps_finish hi

end Sys2Proof.Machine
end

