-- ==== Sys2Proof/Laws/Formats.lean ====
section
/-! SUPPORT. Each format of R104: a word encoded in it decodes to the instruction of its row, with the
operands it was encoded from. -/

set_option linter.unusedSimpArgs false

namespace Sys2Proof

theorem ai_roundTrip {j : Nat} {m : String} {p : InsnWord} {c : RegNum → BitVec 16 → Instr}
    (hk : opcodeTable[j]? = some ⟨m, p, 0xFC000000#32, 0x03E00000#32, ofAI c⟩)
    (hp : put 26 0x13#6 = p) (rA : RegNum) (imm : BitVec 16) :
    decodeWord (encAI rA imm) = .instr (c rA imm) := by
  rw [decodeWord_of_row hk]
  · simp (disch := decide) only [encAI, ofAI, fieldA, fieldI, field_or, field_put_same, field_put_other, BitVec.or_zero, BitVec.zero_or]
  · rw [← hp]
    simp (disch := decide) only [encAI, or_and, put_and_self, put_and_zero, BitVec.or_zero]
  · simp (disch := decide) only [encAI, or_and, put_and_zero, BitVec.or_zero]

theorem cust_roundTrip {j : Nat} {m : String} {p : InsnWord} {c : BitVec 26 → Instr} {op : BitVec 6}
    (hk : opcodeTable[j]? = some ⟨m, p, 0xFC000000#32, 0x00000000#32, ofCust c⟩)
    (hp : put 26 op = p) (custom : BitVec 26) :
    decodeWord (encCUST op custom) = .instr (c custom) := by
  rw [decodeWord_of_row hk]
  · simp (disch := decide) only [encCUST, ofCust, field_or, field_put_same, field_put_other, BitVec.or_zero, BitVec.zero_or]
  · rw [← hp]
    simp (disch := decide) only [encCUST, or_and, put_and_self, put_and_zero, BitVec.or_zero]
  · simp (disch := decide) only [encCUST, or_and, put_and_zero, BitVec.or_zero]

theorem cust5_roundTrip {j : Nat} {m : String} {p : InsnWord} {c : RegNum → RegNum → RegNum → BitVec 6 → BitVec 5 → Instr}
    (hk : opcodeTable[j]? = some ⟨m, p, 0xFC000000#32, 0x00000000#32, ofCust5 c⟩)
    (hp : put 26 0x3C#6 = p) (rD : RegNum) (rA : RegNum) (rB : RegNum) (l : BitVec 6) (k : BitVec 5) :
    decodeWord (encCUST5 rD rA rB l k) = .instr (c rD rA rB l k) := by
  rw [decodeWord_of_row hk]
  · simp (disch := decide) only [encCUST5, ofCust5, fieldD, fieldA, fieldB, field_or, field_put_same, field_put_other, BitVec.or_zero, BitVec.zero_or]
  · rw [← hp]
    simp (disch := decide) only [encCUST5, or_and, put_and_self, put_and_zero, BitVec.or_zero]
  · simp (disch := decide) only [encCUST5, or_and, put_and_zero, BitVec.or_zero]

theorem f2_roundTrip {j : Nat} {m : String} {p : InsnWord} {c : RegNum → RegNum → Instr} {s70 : BitVec 8}
    (hk : opcodeTable[j]? = some ⟨m, p, 0xFC0000FF#32, 0x0000FF00#32, ofDA c⟩)
    (hp : put 26 0x32#6 ||| put 0 s70 = p) (rD : RegNum) (rA : RegNum) :
    decodeWord (encF2 s70 rD rA) = .instr (c rD rA) := by
  rw [decodeWord_of_row hk]
  · simp (disch := decide) only [encF2, ofDA, fieldD, fieldA, field_or, field_put_same, field_put_other, BitVec.or_zero, BitVec.zero_or]
  · rw [← hp]
    simp (disch := decide) only [encF2, or_and, put_and_self, put_and_zero, BitVec.or_zero]
  · simp (disch := decide) only [encF2, or_and, put_and_zero, BitVec.or_zero]

theorem f3_roundTrip {j : Nat} {m : String} {p : InsnWord} {c : RegNum → RegNum → RegNum → Instr} {s70 : BitVec 8}
    (hk : opcodeTable[j]? = some ⟨m, p, 0xFC0000FF#32, 0x00000700#32, ofDAB c⟩)
    (hp : put 26 0x32#6 ||| put 0 s70 = p) (rD : RegNum) (rA : RegNum) (rB : RegNum) :
    decodeWord (encF3 s70 rD rA rB) = .instr (c rD rA rB) := by
  rw [decodeWord_of_row hk]
  · simp (disch := decide) only [encF3, ofDAB, fieldD, fieldA, fieldB, field_or, field_put_same, field_put_other, BitVec.or_zero, BitVec.zero_or]
  · rw [← hp]
    simp (disch := decide) only [encF3, or_and, put_and_self, put_and_zero, BitVec.or_zero]
  · simp (disch := decide) only [encF3, or_and, put_and_zero, BitVec.or_zero]

theorem fc_roundTrip {j : Nat} {m : String} {p : InsnWord} {c : RegNum → RegNum → Instr} {s70 : BitVec 8}
    (hk : opcodeTable[j]? = some ⟨m, p, 0xFC0000FF#32, 0x03E00700#32, ofAB c⟩)
    (hp : put 26 0x32#6 ||| put 0 s70 = p) (rA : RegNum) (rB : RegNum) :
    decodeWord (encFC s70 rA rB) = .instr (c rA rB) := by
  rw [decodeWord_of_row hk]
  · simp (disch := decide) only [encFC, ofAB, fieldA, fieldB, field_or, field_put_same, field_put_other, BitVec.or_zero, BitVec.zero_or]
  · rw [← hp]
    simp (disch := decide) only [encFC, or_and, put_and_self, put_and_zero, BitVec.or_zero]
  · simp (disch := decide) only [encFC, or_and, put_and_zero, BitVec.or_zero]

theorem fcust_roundTrip {j : Nat} {m : String} {p : InsnWord} {c : RegNum → RegNum → BitVec 12 → Instr} {s74 : BitVec 4}
    (hk : opcodeTable[j]? = some ⟨m, p, 0xFC0000F0#32, 0x00000000#32, ofABCust c⟩)
    (hp : put 26 0x32#6 ||| put 4 s74 = p) (rA : RegNum) (rB : RegNum) (custom : BitVec 12) :
    decodeWord (encFCUST s74 rA rB custom) = .instr (c rA rB custom) := by
  rw [decodeWord_of_row hk]
  · simp (disch := decide) only [encFCUST, ofABCust, fieldA, fieldB, fieldFree, field_or, field_put_same, field_put_other, BitVec.or_zero, BitVec.zero_or, free_append]
  · rw [← hp]
    simp (disch := decide) only [encFCUST, or_and, put_and_self, put_and_zero, BitVec.or_zero]
  · simp (disch := decide) only [encFCUST, or_and, put_and_zero, BitVec.or_zero]

theorem hi_roundTrip {j : Nat} {m : String} {p : InsnWord} {c : RegNum → BitVec 16 → Instr}
    (hk : opcodeTable[j]? = some ⟨m, p, 0xFC010000#32, 0x001E0000#32, ofDI c⟩)
    (hp : put 26 0x06#6 = p) (rD : RegNum) (imm : BitVec 16) :
    decodeWord (encHI rD imm) = .instr (c rD imm) := by
  rw [decodeWord_of_row hk]
  · simp (disch := decide) only [encHI, ofDI, fieldD, fieldI, field_or, field_put_same, field_put_other, BitVec.or_zero, BitVec.zero_or]
  · rw [← hp]
    simp (disch := decide) only [encHI, or_and, put_and_self, put_and_zero, BitVec.or_zero]
  · simp (disch := decide) only [encHI, or_and, put_and_zero, BitVec.or_zero]

theorem j_roundTrip {j : Nat} {m : String} {p : InsnWord} {c : BitVec 26 → Instr} {op : BitVec 6}
    (hk : opcodeTable[j]? = some ⟨m, p, 0xFC000000#32, 0x00000000#32, ofN c⟩)
    (hp : put 26 op = p) (n : BitVec 26) :
    decodeWord (encJ op n) = .instr (c n) := by
  rw [decodeWord_of_row hk]
  · simp (disch := decide) only [encJ, ofN, field_or, field_put_same, field_put_other, BitVec.or_zero, BitVec.zero_or]
  · rw [← hp]
    simp (disch := decide) only [encJ, or_and, put_and_self, put_and_zero, BitVec.or_zero]
  · simp (disch := decide) only [encJ, or_and, put_and_zero, BitVec.or_zero]

theorem jr_roundTrip {j : Nat} {m : String} {p : InsnWord} {c : RegNum → Instr} {op : BitVec 6}
    (hk : opcodeTable[j]? = some ⟨m, p, 0xFC000000#32, 0x03FF07FF#32, ofB c⟩)
    (hp : put 26 op = p) (rB : RegNum) :
    decodeWord (encJR op rB) = .instr (c rB) := by
  rw [decodeWord_of_row hk]
  · simp (disch := decide) only [encJR, ofB, fieldB, field_or, field_put_same, field_put_other, BitVec.or_zero, BitVec.zero_or]
  · rw [← hp]
    simp (disch := decide) only [encJR, or_and, put_and_self, put_and_zero, BitVec.or_zero]
  · simp (disch := decide) only [encJR, or_and, put_and_zero, BitVec.or_zero]

theorem k_roundTrip {j : Nat} {m : String} {p : InsnWord} {c : BitVec 16 → Instr} {top : BitVec 16}
    (hk : opcodeTable[j]? = some ⟨m, p, 0xFF000000#32, 0x00FF0000#32, ofI c⟩)
    (hp : put 16 top = p) (hm : p &&& 0xFF000000#32 = p) (hr : p &&& 0x00FF0000#32 = 0#32) (imm : BitVec 16) :
    decodeWord (encK top imm) = .instr (c imm) := by
  rw [decodeWord_of_row hk]
  · simp (disch := decide) only [encK, ofI, fieldI, field_or, field_put_same, field_put_other, BitVec.or_zero, BitVec.zero_or]
  · rw [← hp]
    rw [hp, encK, or_and, put_and_zero (m := 0xFF000000#32) imm (by decide), BitVec.or_zero, hp, hm]
  · rw [encK, or_and, put_and_zero (m := 0x00FF0000#32) imm (by decide), BitVec.or_zero, hp, hr]

theorem kK_roundTrip {j : Nat} {m : String} {p : InsnWord} {c : BitVec 16 → Instr} {top : BitVec 16}
    (hk : opcodeTable[j]? = some ⟨m, p, 0xFFFF0000#32, 0x00000000#32, ofI c⟩)
    (hp : put 16 top = p) (imm : BitVec 16) :
    decodeWord (encK top imm) = .instr (c imm) := by
  rw [decodeWord_of_row hk]
  · simp (disch := decide) only [encK, ofI, fieldI, field_or, field_put_same, field_put_other, BitVec.or_zero, BitVec.zero_or]
  · rw [← hp]
    simp (disch := decide) only [encK, or_and, put_and_self, put_and_zero, BitVec.or_zero]
  · simp (disch := decide) only [encK, or_and, put_and_zero, BitVec.or_zero]

theorem mac_roundTrip {j : Nat} {m : String} {p : InsnWord} {c : RegNum → RegNum → Instr} {s30 : BitVec 4}
    (hk : opcodeTable[j]? = some ⟨m, p, 0xFC00000F#32, 0x03E007F0#32, ofAB c⟩)
    (hp : put 26 0x31#6 ||| put 0 s30 = p) (rA : RegNum) (rB : RegNum) :
    decodeWord (encMAC s30 rA rB) = .instr (c rA rB) := by
  rw [decodeWord_of_row hk]
  · simp (disch := decide) only [encMAC, ofAB, fieldA, fieldB, field_or, field_put_same, field_put_other, BitVec.or_zero, BitVec.zero_or]
  · rw [← hp]
    simp (disch := decide) only [encMAC, or_and, put_and_self, put_and_zero, BitVec.or_zero]
  · simp (disch := decide) only [encMAC, or_and, put_and_zero, BitVec.or_zero]

theorem rab_roundTrip {j : Nat} {m : String} {p : InsnWord} {c : RegNum → RegNum → Instr} {s98 : BitVec 2} {s30 : BitVec 4}
    (hk : opcodeTable[j]? = some ⟨m, p, 0xFC00030F#32, 0x03E004F0#32, ofAB c⟩)
    (hp : put 26 0x38#6 ||| put 8 s98 ||| put 0 s30 = p) (rA : RegNum) (rB : RegNum) :
    decodeWord (encRAB s98 s30 rA rB) = .instr (c rA rB) := by
  rw [decodeWord_of_row hk]
  · simp (disch := decide) only [encRAB, ofAB, fieldA, fieldB, field_or, field_put_same, field_put_other, BitVec.or_zero, BitVec.zero_or]
  · rw [← hp]
    simp (disch := decide) only [encRAB, or_and, put_and_self, put_and_zero, BitVec.or_zero]
  · simp (disch := decide) only [encRAB, or_and, put_and_zero, BitVec.or_zero]

theorem rc_roundTrip {j : Nat} {m : String} {p : InsnWord} {c : RegNum → Instr}
    (hk : opcodeTable[j]? = some ⟨m, p, 0xFC01FFFF#32, 0x001E0000#32, ofD c⟩)
    (hp : put 26 0x06#6 ||| put 16 0x1#1 = p) (rD : RegNum) :
    decodeWord (encRC rD) = .instr (c rD) := by
  rw [decodeWord_of_row hk]
  · simp (disch := decide) only [encRC, ofD, fieldD, field_or, field_put_same, field_put_other, BitVec.or_zero, BitVec.zero_or]
  · rw [← hp]
    simp (disch := decide) only [encRC, or_and, put_and_self, put_and_zero, BitVec.or_zero]
  · simp (disch := decide) only [encRC, or_and, put_and_zero, BitVec.or_zero]

theorem ri_roundTrip {j : Nat} {m : String} {p : InsnWord} {c : RegNum → RegNum → BitVec 16 → Instr} {op : BitVec 6}
    (hk : opcodeTable[j]? = some ⟨m, p, 0xFC000000#32, 0x00000000#32, ofDAI c⟩)
    (hp : put 26 op = p) (rD : RegNum) (rA : RegNum) (imm : BitVec 16) :
    decodeWord (encRI op rD rA imm) = .instr (c rD rA imm) := by
  rw [decodeWord_of_row hk]
  · simp (disch := decide) only [encRI, ofDAI, fieldD, fieldA, fieldI, field_or, field_put_same, field_put_other, BitVec.or_zero, BitVec.zero_or]
  · rw [← hp]
    simp (disch := decide) only [encRI, or_and, put_and_self, put_and_zero, BitVec.or_zero]
  · simp (disch := decide) only [encRI, or_and, put_and_zero, BitVec.or_zero]

theorem rr_roundTrip {j : Nat} {m : String} {p : InsnWord} {c : RegNum → RegNum → Instr} {s96 : BitVec 4} {s30 : BitVec 4}
    (hk : opcodeTable[j]? = some ⟨m, p, 0xFC0003CF#32, 0x0000FC30#32, ofDA c⟩)
    (hp : put 26 0x38#6 ||| put 6 s96 ||| put 0 s30 = p) (rD : RegNum) (rA : RegNum) :
    decodeWord (encRR s96 s30 rD rA) = .instr (c rD rA) := by
  rw [decodeWord_of_row hk]
  · simp (disch := decide) only [encRR, ofDA, fieldD, fieldA, field_or, field_put_same, field_put_other, BitVec.or_zero, BitVec.zero_or]
  · rw [← hp]
    simp (disch := decide) only [encRR, or_and, put_and_self, put_and_zero, BitVec.or_zero]
  · simp (disch := decide) only [encRR, or_and, put_and_zero, BitVec.or_zero]

theorem rrr_roundTrip {j : Nat} {m : String} {p : InsnWord} {c : RegNum → RegNum → RegNum → Instr} {s98 : BitVec 2} {s30 : BitVec 4}
    (hk : opcodeTable[j]? = some ⟨m, p, 0xFC00030F#32, 0x000004F0#32, ofDAB c⟩)
    (hp : put 26 0x38#6 ||| put 8 s98 ||| put 0 s30 = p) (rD : RegNum) (rA : RegNum) (rB : RegNum) :
    decodeWord (encRRR s98 s30 rD rA rB) = .instr (c rD rA rB) := by
  rw [decodeWord_of_row hk]
  · simp (disch := decide) only [encRRR, ofDAB, fieldD, fieldA, fieldB, field_or, field_put_same, field_put_other, BitVec.or_zero, BitVec.zero_or]
  · rw [← hp]
    simp (disch := decide) only [encRRR, or_and, put_and_self, put_and_zero, BitVec.or_zero]
  · simp (disch := decide) only [encRRR, or_and, put_and_zero, BitVec.or_zero]

theorem rrrs_roundTrip {j : Nat} {m : String} {p : InsnWord} {c : RegNum → RegNum → RegNum → Instr} {s96 : BitVec 4} {s30 : BitVec 4}
    (hk : opcodeTable[j]? = some ⟨m, p, 0xFC0003CF#32, 0x00000430#32, ofDAB c⟩)
    (hp : put 26 0x38#6 ||| put 6 s96 ||| put 0 s30 = p) (rD : RegNum) (rA : RegNum) (rB : RegNum) :
    decodeWord (encRRRs s96 s30 rD rA rB) = .instr (c rD rA rB) := by
  rw [decodeWord_of_row hk]
  · simp (disch := decide) only [encRRRs, ofDAB, fieldD, fieldA, fieldB, field_or, field_put_same, field_put_other, BitVec.or_zero, BitVec.zero_or]
  · rw [← hp]
    simp (disch := decide) only [encRRRs, or_and, put_and_self, put_and_zero, BitVec.or_zero]
  · simp (disch := decide) only [encRRRs, or_and, put_and_zero, BitVec.or_zero]

theorem rsh_roundTrip {j : Nat} {m : String} {p : InsnWord} {c : RegNum → RegNum → BitVec 6 → Instr} {s76 : BitVec 2}
    (hk : opcodeTable[j]? = some ⟨m, p, 0xFC0000C0#32, 0x0000FF00#32, ofDAL c⟩)
    (hp : put 26 0x2E#6 ||| put 6 s76 = p) (rD : RegNum) (rA : RegNum) (l : BitVec 6) :
    decodeWord (encRSH s76 rD rA l) = .instr (c rD rA l) := by
  rw [decodeWord_of_row hk]
  · simp (disch := decide) only [encRSH, ofDAL, fieldD, fieldA, field_or, field_put_same, field_put_other, BitVec.or_zero, BitVec.zero_or]
  · rw [← hp]
    simp (disch := decide) only [encRSH, or_and, put_and_self, put_and_zero, BitVec.or_zero]
  · simp (disch := decide) only [encRSH, or_and, put_and_zero, BitVec.or_zero]

theorem sf_roundTrip {j : Nat} {m : String} {p : InsnWord} {c : RegNum → RegNum → Instr} {cond : BitVec 5}
    (hk : opcodeTable[j]? = some ⟨m, p, 0xFFE00000#32, 0x000007FF#32, ofAB c⟩)
    (hp : put 26 0x39#6 ||| put 21 cond = p) (rA : RegNum) (rB : RegNum) :
    decodeWord (encSF cond rA rB) = .instr (c rA rB) := by
  rw [decodeWord_of_row hk]
  · simp (disch := decide) only [encSF, ofAB, fieldA, fieldB, field_or, field_put_same, field_put_other, BitVec.or_zero, BitVec.zero_or]
  · rw [← hp]
    simp (disch := decide) only [encSF, or_and, put_and_self, put_and_zero, BitVec.or_zero]
  · simp (disch := decide) only [encSF, or_and, put_and_zero, BitVec.or_zero]

theorem sfi_roundTrip {j : Nat} {m : String} {p : InsnWord} {c : RegNum → BitVec 16 → Instr} {cond : BitVec 5}
    (hk : opcodeTable[j]? = some ⟨m, p, 0xFFE00000#32, 0x00000000#32, ofAI c⟩)
    (hp : put 26 0x2F#6 ||| put 21 cond = p) (rA : RegNum) (imm : BitVec 16) :
    decodeWord (encSFI cond rA imm) = .instr (c rA imm) := by
  rw [decodeWord_of_row hk]
  · simp (disch := decide) only [encSFI, ofAI, fieldA, fieldI, field_or, field_put_same, field_put_other, BitVec.or_zero, BitVec.zero_or]
  · rw [← hp]
    simp (disch := decide) only [encSFI, or_and, put_and_self, put_and_zero, BitVec.or_zero]
  · simp (disch := decide) only [encSFI, or_and, put_and_zero, BitVec.or_zero]

theorem st_roundTrip {j : Nat} {m : String} {p : InsnWord} {c : RegNum → RegNum → BitVec 16 → Instr} {op : BitVec 6}
    (hk : opcodeTable[j]? = some ⟨m, p, 0xFC000000#32, 0x00000000#32, ofABSplit c⟩)
    (hp : put 26 op = p) (rA : RegNum) (rB : RegNum) (imm : BitVec 16) :
    decodeWord (encST op rA rB imm) = .instr (c rA rB imm) := by
  rw [decodeWord_of_row hk]
  · simp (disch := decide) only [encST, ofABSplit, fieldA, fieldB, fieldSplit, field_or, field_put_same, field_put_other, BitVec.or_zero, BitVec.zero_or, split_append]
  · rw [← hp]
    simp (disch := decide) only [encST, or_and, put_and_self, put_and_zero, BitVec.or_zero]
  · simp (disch := decide) only [encST, or_and, put_and_zero, BitVec.or_zero]

theorem sync_roundTrip {j : Nat} {m : String} {p : InsnWord} {c : Instr} {s : BitVec 3}
    (hk : opcodeTable[j]? = some ⟨m, p, 0xFF800000#32, 0x007FFFFF#32, ofZ c⟩)
    (hp : put 26 0x08#6 ||| put 23 s = p) :
    decodeWord (encSYNC s) = .instr (c) := by
  rw [decodeWord_of_row hk]
  · rfl
  · rw [← hp]
    simp (disch := decide) only [encSYNC, or_and, put_and_self, put_and_zero, BitVec.or_zero]
  · simp (disch := decide) only [encSYNC, or_and, put_and_zero, BitVec.or_zero]

theorem v3_roundTrip {j : Nat} {m : String} {p : InsnWord} {c : RegNum → RegNum → RegNum → Instr} {s70 : BitVec 8}
    (hk : opcodeTable[j]? = some ⟨m, p, 0xFC0000FF#32, 0x00000700#32, ofDAB c⟩)
    (hp : put 26 0x0A#6 ||| put 0 s70 = p) (rD : RegNum) (rA : RegNum) (rB : RegNum) :
    decodeWord (encV3 s70 rD rA rB) = .instr (c rD rA rB) := by
  rw [decodeWord_of_row hk]
  · simp (disch := decide) only [encV3, ofDAB, fieldD, fieldA, fieldB, field_or, field_put_same, field_put_other, BitVec.or_zero, BitVec.zero_or]
  · rw [← hp]
    simp (disch := decide) only [encV3, or_and, put_and_self, put_and_zero, BitVec.or_zero]
  · simp (disch := decide) only [encV3, or_and, put_and_zero, BitVec.or_zero]

theorem vcust_roundTrip {j : Nat} {m : String} {p : InsnWord} {c : BitVec 18 → BitVec 4 → Instr} {s74 : BitVec 4}
    (hk : opcodeTable[j]? = some ⟨m, p, 0xFC0000F0#32, 0x00000000#32, ofVCust c⟩)
    (hp : put 26 0x0A#6 ||| put 4 s74 = p) (hi : BitVec 18) (lo : BitVec 4) :
    decodeWord (encVCUST s74 hi lo) = .instr (c hi lo) := by
  rw [decodeWord_of_row hk]
  · simp (disch := decide) only [encVCUST, ofVCust, field_or, field_put_same, field_put_other, BitVec.or_zero, BitVec.zero_or]
  · rw [← hp]
    simp (disch := decide) only [encVCUST, or_and, put_and_self, put_and_zero, BitVec.or_zero]
  · simp (disch := decide) only [encVCUST, or_and, put_and_zero, BitVec.or_zero]

theorem z_roundTrip {j : Nat} {m : String} {p : InsnWord} {c : Instr}
    (hk : opcodeTable[j]? = some ⟨m, p, 0xFC000000#32, 0x03FFFFFF#32, ofZ c⟩)
    (hp : put 26 0x09#6 = p) :
    decodeWord (encZ) = .instr (c) := by
  rw [decodeWord_of_row hk]
  · rfl
  · rw [← hp]
    simp (disch := decide) only [encZ, or_and, put_and_self, put_and_zero, BitVec.or_zero]
  · simp (disch := decide) only [encZ, or_and, put_and_zero, BitVec.or_zero]

end Sys2Proof
end

