-- ==== Sys2Proof/Laws/Lanes.lean ====
section
/-! SUPPORT. Lanes of a 64-bit register as numbers, and the shared endings of the packed instructions. -/

namespace Sys2Proof.Machine

/-- A lane of a bit vector is an element of its number (R351). -/
theorem lane_toNat (w i : Nat) (v : BitVec 64) : (lane w i v).toNat = elemU w i v.toNat := by
  rw [lane, BitVec.extractLsb'_toNat, Nat.shiftRight_eq_div_pow, elemU]

theorem lane_toInt {w : Nat} (hw : 0 < w) (i : Nat) (v : BitVec 64) : (lane w i v).toInt = elemS w i v.toNat := by
  rw [BitVec.toInt_eq_toNat_cond, lane_toNat, elemS]
  have h2 : 2 ^ w = 2 * 2 ^ (w - 1) := by rw [← pow_succ']; congr 1; omega
  by_cases h : elemU w i v.toNat < 2 ^ (w - 1)
  · rw [if_pos h, if_pos (by omega)]
  · rw [if_neg h, if_neg (by omega)]; push_cast; rfl

theorem elemU_lt (w i v : Nat) : elemU w i v < 2 ^ w := Nat.mod_lt _ (Nat.two_pow_pos _)

/-- What a register packed from lanes has in each (R351). -/
theorem packLanes_bit (w n : Nat) (f : Nat → BitVec w) (j : Nat) (hn : w * n ≤ 64) :
    (packLanes w n f).getLsbD j = (decide (j < w * n) && (f (j / w)).getLsbD (j % w)) := by
  induction n with
  | zero => simp [packLanes]
  | succ k ih =>
    have hk : w * k ≤ 64 := le_trans (Nat.mul_le_mul_left _ (Nat.le_succ k)) hn
    rw [packLanes, BitVec.getLsbD_or, ih hk, BitVec.getLsbD_shiftLeft, BitVec.getLsbD_setWidth]
    rw [Nat.mul_succ] at hn ⊢
    by_cases h1 : j < w * k
    · simp [h1, show j < w * k + w by omega]
    · by_cases h2 : j < w * k + w
      · have hw : 0 < w := by omega
        have hd : j / w = k := by
          rw [Nat.div_eq_iff hw]
          constructor
          · rw [mul_comm]; omega
          · rw [mul_comm]; omega
        have hm : j % w = j - w * k := by
          have := Nat.div_add_mod j w; rw [hd] at this; omega
        simp [h1, h2, hd, hm, show j < 64 by omega, show j - w * k < 64 by omega]
      · have : (f k).getLsbD (j - w * k) = false := BitVec.getLsbD_of_ge _ _ (by omega)
        simp [h1, h2, this]

theorem lane_packLanes {w n : Nat} (f : Nat → BitVec w) (hn : w * n ≤ 64) {k : Nat} (hk : k < n) :
    lane w k (packLanes w n f) = f k := by
  apply BitVec.eq_of_getLsbD_eq
  intro j hj
  rw [lane, BitVec.getLsbD_extractLsb', packLanes_bit w n f _ hn]
  have hw : 0 < w := by omega
  have h1 : w * k + j < w * n := by
    calc w * k + j < w * k + w := by omega
      _ = w * (k + 1) := by ring
      _ ≤ w * n := Nat.mul_le_mul_left _ hk
  have h2 : (w * k + j) / w = k := by rw [Nat.mul_add_div hw, Nat.div_eq_of_lt hj, Nat.add_zero]
  have h3 : (w * k + j) % w = j := by rw [Nat.mul_add_mod, Nat.mod_eq_of_lt hj]
  simp [h1, h2, h3, hj]

theorem elemU_packLanes {w n : Nat} (f : Nat → BitVec w) (hn : w * n ≤ 64) {k : Nat} (hk : k < n) :
    elemU w k (packLanes w n f).toNat = (f k).toNat := by rw [← lane_toNat, lane_packLanes f hn hk]

theorem laneCount_mul (w : Nat) : w * laneCount w ≤ 64 := by rw [laneCount]; exact Nat.mul_div_le 64 w

/-! ### Elements -/

theorem satSigned_toNat (w : Nat) (e : Int) :
    (satSigned w e).toNat = wrap w (min (2 ^ (w - 1) - 1) (max (-(2 ^ (w - 1))) e)) := toNat_ofInt_wrap _ _

theorem satUnsigned_toNat (w n : Nat) : (satUnsigned w (n : Int)).toNat = min (2 ^ w - 1) n := by
  have hp : 0 < 2 ^ w := Nat.two_pow_pos w
  rw [satUnsigned, toNat_ofInt_wrap]
  have : (min ((2 : Int) ^ w - 1) (max 0 (n : Int))) = ((min (2 ^ w - 1) n : Nat) : Int) := by
    rw [max_eq_right (by positivity)]
    push_cast [Nat.one_le_two_pow]
    rfl
  rw [this, wrap_of_lt (lt_of_le_of_lt (min_le_left _ _) (by omega))]

theorem repl_toNat (w : Nat) (c : Bool) : (repl w c).toNat = if c then 2 ^ w - 1 else 0 := by
  cases c <;> simp [repl]

theorem elemInt_lane {w : Nat} (hw : 0 < w) (signed : Bool) (k : Nat) (v : BitVec 64) :
    elemInt signed (lane w k v) = if signed then elemS w k v.toNat else (elemU w k v.toNat : Int) := by
  cases signed
  · simp [elemInt, lane_toNat]
  · simp [elemInt, lane_toInt hw]

/-! ### Endings -/

variable {s : State} {i : Instr}

theorem hasVector_iff (c : Config) : hasVector c = true ↔ c.hasVdx64 = true ∧ c.xlen = .x64 := by simp [hasVector]

theorem State.width_x64 (h : s.cfg.xlen = .x64) : s.width = 64 := by rw [State.width_eq, h]; rfl

theorem reg64_toNat (h : s.cfg.xlen = .x64) (r : RegNum) : (s.reg64 r).toNat = s.uval r := by
  rw [State.reg64, BitVec.toNat_setWidth]
  have := s.uval_lt r
  rw [State.width_x64 h] at this
  exact Nat.mod_eq_of_lt this

theorem uval_setReg64 {t : State} (h : s.cfg.xlen = .x64) (d : RegNum) (v : BitVec 64) (hc : t.cfg = s.cfg)
    (hr : t.regs = (s.setReg d v).regs) : t.uval d = v.toNat := by
  rw [State.uval_congr (s := s.setReg d v) hc hr, State.uval_setReg, if_pos rfl, State.width_x64 h, Nat.mod_eq_of_lt v.isLt]

/-- A packed instruction writes one register (R350, R351). -/
theorem vecResult_completes {rD : RegNum} {v : BitVec 64} {post : State → Prop} (hv : s.cfg.hasVdx64 = true)
    (hx : s.cfg.xlen = .x64) (he : exec i s = vecResult s rD v) (hpost : ∀ t : State, t.cfg = s.cfg → t.uval rD = v.toNat → post t) :
    Completes i s [.reg rD] post := by
  refine completes_finish (u := s.setReg rD v) ?_ ((Frame.refl _ s).setReg rD v (by simp)) rfl rfl
    (hpost _ rfl (uval_setReg64 hx rD v rfl rfl))
  rw [he, vecResult, whenPresent_true ((hasVector_iff _).2 ⟨hv, hx⟩)]

/-- A packed instruction that works lane by lane. -/
theorem packLanes_completes {rD : RegNum} {w : Nat} {f : Nat → BitVec w} {elem : Nat → Nat} (hv : s.cfg.hasVdx64 = true)
    (hx : s.cfg.xlen = .x64) (he : exec i s = vecResult s rD (packLanes w (laneCount w) f))
    (hf : ∀ k, k < laneCount w → (f k).toNat = elem k) : VectorCompletes i s rD w elem := by
  refine vecResult_completes hv hx he fun t _ ht k hk => ?_
  rw [ht, elemU_packLanes f (laneCount_mul w) hk, hf k hk]

/-- `lv.all_*` and `lv.any_*` (R354). -/
theorem vecFlag_completes {rD : RegNum} {flag : Bool} {c : Prop} (hv : s.cfg.hasVdx64 = true) (hx : s.cfg.xlen = .x64)
    (he : exec i s = vecFlag s rD flag) (hc : flag = true ↔ c) :
    Completes i s [.reg rD, .sr srF] fun t =>
      (c → t.uval rD = 2 ^ 64 - 1) ∧ (¬ c → t.uval rD = 0) ∧ (s.cfg.lvSetsF = true → (t.flagF = true ↔ c)) ∧
        (s.cfg.lvSetsF = false → t.flagF = s.flagF) := by
  have hreg : ∀ t : State, t.cfg = s.cfg → t.regs = (s.setReg rD (repl 64 flag)).regs →
      (c → t.uval rD = 2 ^ 64 - 1) ∧ (¬ c → t.uval rD = 0) := by
    intro t h1 h2
    rw [uval_setReg64 hx rD (repl 64 flag) h1 h2, repl_toNat, ← hc]
    constructor <;> intro h <;> simp [h]
  have he' : exec i s = finish (if s.cfg.lvSetsF then (s.setReg rD (repl 64 flag)).setF flag else s.setReg rD (repl 64 flag)) := by
    rw [he, vecFlag, whenPresent_true ((hasVector_iff _).2 ⟨hv, hx⟩)]
  by_cases hs : s.cfg.lvSetsF = true
  · rw [if_pos hs] at he'
    refine completes_finish he' (((Frame.refl _ s).setReg rD _ (by simp)).setSrBit srF flag (by simp)) rfl rfl ?_
    obtain ⟨h1, h2⟩ := hreg (((s.setReg rD (repl 64 flag)).setF flag).advance) rfl rfl
    refine ⟨h1, h2, fun _ => ?_, fun h => by rw [hs] at h; cases h⟩
    rw [State.flagF, State.srBit_of_sr (State.advance_sr _), ← hc]
    simp [State.setF, srF]
  · rw [if_neg hs] at he'
    refine completes_finish he' ((Frame.refl _ s).setReg rD _ (by simp)) rfl rfl ?_
    obtain ⟨h1, h2⟩ := hreg ((s.setReg rD (repl 64 flag)).advance) rfl rfl
    exact ⟨h1, h2, fun h => absurd h hs, fun _ => rfl⟩

end Sys2Proof.Machine
end

