-- ==== Sys2Proof/Laws/PerInstr.lean ====
section
/-! SUPPORT. The family of LAWS.json: for each instruction, the word the encoder writes decodes to it. -/

namespace Sys2Proof.Laws

/-- The word the encoder writes for an instruction decodes to that instruction (R103, R104, R115). -/
def EncodingRoundTrip.Statement (i : Instr) : Prop := decodeWord (encode i) = .instr i

theorem EncodingRoundTrip.lAdd (rD : RegNum) (rA : RegNum) (rB : RegNum) : Statement (.lAdd rD rA rB) :=
  rrr_roundTrip (j := 0) rfl (by decide) rD rA rB
theorem EncodingRoundTrip.lAddc (rD : RegNum) (rA : RegNum) (rB : RegNum) : Statement (.lAddc rD rA rB) :=
  rrr_roundTrip (j := 1) rfl (by decide) rD rA rB
theorem EncodingRoundTrip.lAddi (rD : RegNum) (rA : RegNum) (imm : BitVec 16) : Statement (.lAddi rD rA imm) :=
  ri_roundTrip (j := 2) rfl (by decide) rD rA imm
theorem EncodingRoundTrip.lAddic (rD : RegNum) (rA : RegNum) (imm : BitVec 16) : Statement (.lAddic rD rA imm) :=
  ri_roundTrip (j := 3) rfl (by decide) rD rA imm
theorem EncodingRoundTrip.lAnd (rD : RegNum) (rA : RegNum) (rB : RegNum) : Statement (.lAnd rD rA rB) :=
  rrr_roundTrip (j := 4) rfl (by decide) rD rA rB
theorem EncodingRoundTrip.lAndi (rD : RegNum) (rA : RegNum) (imm : BitVec 16) : Statement (.lAndi rD rA imm) :=
  ri_roundTrip (j := 5) rfl (by decide) rD rA imm
theorem EncodingRoundTrip.lBf (n : BitVec 26) : Statement (.lBf n) :=
  j_roundTrip (j := 6) rfl (by decide) n
theorem EncodingRoundTrip.lBnf (n : BitVec 26) : Statement (.lBnf n) :=
  j_roundTrip (j := 7) rfl (by decide) n
theorem EncodingRoundTrip.lCmov (rD : RegNum) (rA : RegNum) (rB : RegNum) : Statement (.lCmov rD rA rB) :=
  rrr_roundTrip (j := 8) rfl (by decide) rD rA rB
theorem EncodingRoundTrip.lCsync : Statement (.lCsync) :=
  sync_roundTrip (j := 9) rfl (by decide)
theorem EncodingRoundTrip.lCust1 (custom : BitVec 26) : Statement (.lCust1 custom) :=
  cust_roundTrip (j := 10) rfl (by decide) custom
theorem EncodingRoundTrip.lCust2 (custom : BitVec 26) : Statement (.lCust2 custom) :=
  cust_roundTrip (j := 11) rfl (by decide) custom
theorem EncodingRoundTrip.lCust3 (custom : BitVec 26) : Statement (.lCust3 custom) :=
  cust_roundTrip (j := 12) rfl (by decide) custom
theorem EncodingRoundTrip.lCust4 (custom : BitVec 26) : Statement (.lCust4 custom) :=
  cust_roundTrip (j := 13) rfl (by decide) custom
theorem EncodingRoundTrip.lCust5 (rD : RegNum) (rA : RegNum) (rB : RegNum) (l : BitVec 6) (k : BitVec 5) : Statement (.lCust5 rD rA rB l k) :=
  cust5_roundTrip (j := 14) rfl (by decide) rD rA rB l k
theorem EncodingRoundTrip.lCust6 (custom : BitVec 26) : Statement (.lCust6 custom) :=
  cust_roundTrip (j := 15) rfl (by decide) custom
theorem EncodingRoundTrip.lCust7 (custom : BitVec 26) : Statement (.lCust7 custom) :=
  cust_roundTrip (j := 16) rfl (by decide) custom
theorem EncodingRoundTrip.lCust8 (custom : BitVec 26) : Statement (.lCust8 custom) :=
  cust_roundTrip (j := 17) rfl (by decide) custom
theorem EncodingRoundTrip.lDiv (rD : RegNum) (rA : RegNum) (rB : RegNum) : Statement (.lDiv rD rA rB) :=
  rrr_roundTrip (j := 18) rfl (by decide) rD rA rB
theorem EncodingRoundTrip.lDivu (rD : RegNum) (rA : RegNum) (rB : RegNum) : Statement (.lDivu rD rA rB) :=
  rrr_roundTrip (j := 19) rfl (by decide) rD rA rB
theorem EncodingRoundTrip.lExtbs (rD : RegNum) (rA : RegNum) : Statement (.lExtbs rD rA) :=
  rr_roundTrip (j := 20) rfl (by decide) rD rA
theorem EncodingRoundTrip.lExtbz (rD : RegNum) (rA : RegNum) : Statement (.lExtbz rD rA) :=
  rr_roundTrip (j := 21) rfl (by decide) rD rA
theorem EncodingRoundTrip.lExths (rD : RegNum) (rA : RegNum) : Statement (.lExths rD rA) :=
  rr_roundTrip (j := 22) rfl (by decide) rD rA
theorem EncodingRoundTrip.lExthz (rD : RegNum) (rA : RegNum) : Statement (.lExthz rD rA) :=
  rr_roundTrip (j := 23) rfl (by decide) rD rA
theorem EncodingRoundTrip.lExtws (rD : RegNum) (rA : RegNum) : Statement (.lExtws rD rA) :=
  rr_roundTrip (j := 24) rfl (by decide) rD rA
theorem EncodingRoundTrip.lExtwz (rD : RegNum) (rA : RegNum) : Statement (.lExtwz rD rA) :=
  rr_roundTrip (j := 25) rfl (by decide) rD rA
theorem EncodingRoundTrip.lFf1 (rD : RegNum) (rA : RegNum) (rB : RegNum) : Statement (.lFf1 rD rA rB) :=
  rrr_roundTrip (j := 26) rfl (by decide) rD rA rB
theorem EncodingRoundTrip.lFl1 (rD : RegNum) (rA : RegNum) (rB : RegNum) : Statement (.lFl1 rD rA rB) :=
  rrr_roundTrip (j := 27) rfl (by decide) rD rA rB
theorem EncodingRoundTrip.lJ (n : BitVec 26) : Statement (.lJ n) :=
  j_roundTrip (j := 28) rfl (by decide) n
theorem EncodingRoundTrip.lJal (n : BitVec 26) : Statement (.lJal n) :=
  j_roundTrip (j := 29) rfl (by decide) n
theorem EncodingRoundTrip.lJalr (rB : RegNum) : Statement (.lJalr rB) :=
  jr_roundTrip (j := 30) rfl (by decide) rB
theorem EncodingRoundTrip.lJr (rB : RegNum) : Statement (.lJr rB) :=
  jr_roundTrip (j := 31) rfl (by decide) rB
theorem EncodingRoundTrip.lLbs (rD : RegNum) (rA : RegNum) (imm : BitVec 16) : Statement (.lLbs rD rA imm) :=
  ri_roundTrip (j := 32) rfl (by decide) rD rA imm
theorem EncodingRoundTrip.lLbz (rD : RegNum) (rA : RegNum) (imm : BitVec 16) : Statement (.lLbz rD rA imm) :=
  ri_roundTrip (j := 33) rfl (by decide) rD rA imm
theorem EncodingRoundTrip.lLd (rD : RegNum) (rA : RegNum) (imm : BitVec 16) : Statement (.lLd rD rA imm) :=
  ri_roundTrip (j := 34) rfl (by decide) rD rA imm
theorem EncodingRoundTrip.lLhs (rD : RegNum) (rA : RegNum) (imm : BitVec 16) : Statement (.lLhs rD rA imm) :=
  ri_roundTrip (j := 35) rfl (by decide) rD rA imm
theorem EncodingRoundTrip.lLhz (rD : RegNum) (rA : RegNum) (imm : BitVec 16) : Statement (.lLhz rD rA imm) :=
  ri_roundTrip (j := 36) rfl (by decide) rD rA imm
theorem EncodingRoundTrip.lLwa (rD : RegNum) (rA : RegNum) (imm : BitVec 16) : Statement (.lLwa rD rA imm) :=
  ri_roundTrip (j := 37) rfl (by decide) rD rA imm
theorem EncodingRoundTrip.lLws (rD : RegNum) (rA : RegNum) (imm : BitVec 16) : Statement (.lLws rD rA imm) :=
  ri_roundTrip (j := 38) rfl (by decide) rD rA imm
theorem EncodingRoundTrip.lLwz (rD : RegNum) (rA : RegNum) (imm : BitVec 16) : Statement (.lLwz rD rA imm) :=
  ri_roundTrip (j := 39) rfl (by decide) rD rA imm
theorem EncodingRoundTrip.lMac (rA : RegNum) (rB : RegNum) : Statement (.lMac rA rB) :=
  mac_roundTrip (j := 40) rfl (by decide) rA rB
theorem EncodingRoundTrip.lMaci (rA : RegNum) (imm : BitVec 16) : Statement (.lMaci rA imm) :=
  ai_roundTrip (j := 41) rfl (by decide) rA imm
theorem EncodingRoundTrip.lMacrc (rD : RegNum) : Statement (.lMacrc rD) :=
  rc_roundTrip (j := 42) rfl (by decide) rD
theorem EncodingRoundTrip.lMacu (rA : RegNum) (rB : RegNum) : Statement (.lMacu rA rB) :=
  mac_roundTrip (j := 43) rfl (by decide) rA rB
theorem EncodingRoundTrip.lMfspr (rD : RegNum) (rA : RegNum) (imm : BitVec 16) : Statement (.lMfspr rD rA imm) :=
  ri_roundTrip (j := 44) rfl (by decide) rD rA imm
theorem EncodingRoundTrip.lMovhi (rD : RegNum) (imm : BitVec 16) : Statement (.lMovhi rD imm) :=
  hi_roundTrip (j := 45) rfl (by decide) rD imm
theorem EncodingRoundTrip.lMsb (rA : RegNum) (rB : RegNum) : Statement (.lMsb rA rB) :=
  mac_roundTrip (j := 46) rfl (by decide) rA rB
theorem EncodingRoundTrip.lMsbu (rA : RegNum) (rB : RegNum) : Statement (.lMsbu rA rB) :=
  mac_roundTrip (j := 47) rfl (by decide) rA rB
theorem EncodingRoundTrip.lMsync : Statement (.lMsync) :=
  sync_roundTrip (j := 48) rfl (by decide)
theorem EncodingRoundTrip.lMtspr (rA : RegNum) (rB : RegNum) (imm : BitVec 16) : Statement (.lMtspr rA rB imm) :=
  st_roundTrip (j := 49) rfl (by decide) rA rB imm
theorem EncodingRoundTrip.lMul (rD : RegNum) (rA : RegNum) (rB : RegNum) : Statement (.lMul rD rA rB) :=
  rrr_roundTrip (j := 50) rfl (by decide) rD rA rB
theorem EncodingRoundTrip.lMuld (rA : RegNum) (rB : RegNum) : Statement (.lMuld rA rB) :=
  rab_roundTrip (j := 51) rfl (by decide) rA rB
theorem EncodingRoundTrip.lMuldu (rA : RegNum) (rB : RegNum) : Statement (.lMuldu rA rB) :=
  rab_roundTrip (j := 52) rfl (by decide) rA rB
theorem EncodingRoundTrip.lMuli (rD : RegNum) (rA : RegNum) (imm : BitVec 16) : Statement (.lMuli rD rA imm) :=
  ri_roundTrip (j := 53) rfl (by decide) rD rA imm
theorem EncodingRoundTrip.lMulu (rD : RegNum) (rA : RegNum) (rB : RegNum) : Statement (.lMulu rD rA rB) :=
  rrr_roundTrip (j := 54) rfl (by decide) rD rA rB
theorem EncodingRoundTrip.lNop (imm : BitVec 16) : Statement (.lNop imm) :=
  k_roundTrip (j := 55) rfl (by decide) (by decide) (by decide) imm
theorem EncodingRoundTrip.lOr (rD : RegNum) (rA : RegNum) (rB : RegNum) : Statement (.lOr rD rA rB) :=
  rrr_roundTrip (j := 56) rfl (by decide) rD rA rB
theorem EncodingRoundTrip.lOri (rD : RegNum) (rA : RegNum) (imm : BitVec 16) : Statement (.lOri rD rA imm) :=
  ri_roundTrip (j := 57) rfl (by decide) rD rA imm
theorem EncodingRoundTrip.lPsync : Statement (.lPsync) :=
  sync_roundTrip (j := 58) rfl (by decide)
theorem EncodingRoundTrip.lRfe : Statement (.lRfe) :=
  z_roundTrip (j := 59) rfl (by decide)
theorem EncodingRoundTrip.lRor (rD : RegNum) (rA : RegNum) (rB : RegNum) : Statement (.lRor rD rA rB) :=
  rrrs_roundTrip (j := 60) rfl (by decide) rD rA rB
theorem EncodingRoundTrip.lRori (rD : RegNum) (rA : RegNum) (l : BitVec 6) : Statement (.lRori rD rA l) :=
  rsh_roundTrip (j := 61) rfl (by decide) rD rA l
theorem EncodingRoundTrip.lSb (rA : RegNum) (rB : RegNum) (imm : BitVec 16) : Statement (.lSb rA rB imm) :=
  st_roundTrip (j := 62) rfl (by decide) rA rB imm
theorem EncodingRoundTrip.lSd (rA : RegNum) (rB : RegNum) (imm : BitVec 16) : Statement (.lSd rA rB imm) :=
  st_roundTrip (j := 63) rfl (by decide) rA rB imm
theorem EncodingRoundTrip.lSfeq (rA : RegNum) (rB : RegNum) : Statement (.lSfeq rA rB) :=
  sf_roundTrip (j := 64) rfl (by decide) rA rB
theorem EncodingRoundTrip.lSfeqi (rA : RegNum) (imm : BitVec 16) : Statement (.lSfeqi rA imm) :=
  sfi_roundTrip (j := 65) rfl (by decide) rA imm
theorem EncodingRoundTrip.lSfges (rA : RegNum) (rB : RegNum) : Statement (.lSfges rA rB) :=
  sf_roundTrip (j := 66) rfl (by decide) rA rB
theorem EncodingRoundTrip.lSfgesi (rA : RegNum) (imm : BitVec 16) : Statement (.lSfgesi rA imm) :=
  sfi_roundTrip (j := 67) rfl (by decide) rA imm
theorem EncodingRoundTrip.lSfgeu (rA : RegNum) (rB : RegNum) : Statement (.lSfgeu rA rB) :=
  sf_roundTrip (j := 68) rfl (by decide) rA rB
theorem EncodingRoundTrip.lSfgeui (rA : RegNum) (imm : BitVec 16) : Statement (.lSfgeui rA imm) :=
  sfi_roundTrip (j := 69) rfl (by decide) rA imm
theorem EncodingRoundTrip.lSfgts (rA : RegNum) (rB : RegNum) : Statement (.lSfgts rA rB) :=
  sf_roundTrip (j := 70) rfl (by decide) rA rB
theorem EncodingRoundTrip.lSfgtsi (rA : RegNum) (imm : BitVec 16) : Statement (.lSfgtsi rA imm) :=
  sfi_roundTrip (j := 71) rfl (by decide) rA imm
theorem EncodingRoundTrip.lSfgtu (rA : RegNum) (rB : RegNum) : Statement (.lSfgtu rA rB) :=
  sf_roundTrip (j := 72) rfl (by decide) rA rB
theorem EncodingRoundTrip.lSfgtui (rA : RegNum) (imm : BitVec 16) : Statement (.lSfgtui rA imm) :=
  sfi_roundTrip (j := 73) rfl (by decide) rA imm
theorem EncodingRoundTrip.lSfles (rA : RegNum) (rB : RegNum) : Statement (.lSfles rA rB) :=
  sf_roundTrip (j := 74) rfl (by decide) rA rB
theorem EncodingRoundTrip.lSflesi (rA : RegNum) (imm : BitVec 16) : Statement (.lSflesi rA imm) :=
  sfi_roundTrip (j := 75) rfl (by decide) rA imm
theorem EncodingRoundTrip.lSfleu (rA : RegNum) (rB : RegNum) : Statement (.lSfleu rA rB) :=
  sf_roundTrip (j := 76) rfl (by decide) rA rB
theorem EncodingRoundTrip.lSfleui (rA : RegNum) (imm : BitVec 16) : Statement (.lSfleui rA imm) :=
  sfi_roundTrip (j := 77) rfl (by decide) rA imm
theorem EncodingRoundTrip.lSflts (rA : RegNum) (rB : RegNum) : Statement (.lSflts rA rB) :=
  sf_roundTrip (j := 78) rfl (by decide) rA rB
theorem EncodingRoundTrip.lSfltsi (rA : RegNum) (imm : BitVec 16) : Statement (.lSfltsi rA imm) :=
  sfi_roundTrip (j := 79) rfl (by decide) rA imm
theorem EncodingRoundTrip.lSfltu (rA : RegNum) (rB : RegNum) : Statement (.lSfltu rA rB) :=
  sf_roundTrip (j := 80) rfl (by decide) rA rB
theorem EncodingRoundTrip.lSfltui (rA : RegNum) (imm : BitVec 16) : Statement (.lSfltui rA imm) :=
  sfi_roundTrip (j := 81) rfl (by decide) rA imm
theorem EncodingRoundTrip.lSfne (rA : RegNum) (rB : RegNum) : Statement (.lSfne rA rB) :=
  sf_roundTrip (j := 82) rfl (by decide) rA rB
theorem EncodingRoundTrip.lSfnei (rA : RegNum) (imm : BitVec 16) : Statement (.lSfnei rA imm) :=
  sfi_roundTrip (j := 83) rfl (by decide) rA imm
theorem EncodingRoundTrip.lSh (rA : RegNum) (rB : RegNum) (imm : BitVec 16) : Statement (.lSh rA rB imm) :=
  st_roundTrip (j := 84) rfl (by decide) rA rB imm
theorem EncodingRoundTrip.lSll (rD : RegNum) (rA : RegNum) (rB : RegNum) : Statement (.lSll rD rA rB) :=
  rrrs_roundTrip (j := 85) rfl (by decide) rD rA rB
theorem EncodingRoundTrip.lSlli (rD : RegNum) (rA : RegNum) (l : BitVec 6) : Statement (.lSlli rD rA l) :=
  rsh_roundTrip (j := 86) rfl (by decide) rD rA l
theorem EncodingRoundTrip.lSra (rD : RegNum) (rA : RegNum) (rB : RegNum) : Statement (.lSra rD rA rB) :=
  rrrs_roundTrip (j := 87) rfl (by decide) rD rA rB
theorem EncodingRoundTrip.lSrai (rD : RegNum) (rA : RegNum) (l : BitVec 6) : Statement (.lSrai rD rA l) :=
  rsh_roundTrip (j := 88) rfl (by decide) rD rA l
theorem EncodingRoundTrip.lSrl (rD : RegNum) (rA : RegNum) (rB : RegNum) : Statement (.lSrl rD rA rB) :=
  rrrs_roundTrip (j := 89) rfl (by decide) rD rA rB
theorem EncodingRoundTrip.lSrli (rD : RegNum) (rA : RegNum) (l : BitVec 6) : Statement (.lSrli rD rA l) :=
  rsh_roundTrip (j := 90) rfl (by decide) rD rA l
theorem EncodingRoundTrip.lSub (rD : RegNum) (rA : RegNum) (rB : RegNum) : Statement (.lSub rD rA rB) :=
  rrr_roundTrip (j := 91) rfl (by decide) rD rA rB
theorem EncodingRoundTrip.lSw (rA : RegNum) (rB : RegNum) (imm : BitVec 16) : Statement (.lSw rA rB imm) :=
  st_roundTrip (j := 92) rfl (by decide) rA rB imm
theorem EncodingRoundTrip.lSwa (rA : RegNum) (rB : RegNum) (imm : BitVec 16) : Statement (.lSwa rA rB imm) :=
  st_roundTrip (j := 93) rfl (by decide) rA rB imm
theorem EncodingRoundTrip.lSys (imm : BitVec 16) : Statement (.lSys imm) :=
  kK_roundTrip (j := 94) rfl (by decide) imm
theorem EncodingRoundTrip.lTrap (imm : BitVec 16) : Statement (.lTrap imm) :=
  kK_roundTrip (j := 95) rfl (by decide) imm
theorem EncodingRoundTrip.lXor (rD : RegNum) (rA : RegNum) (rB : RegNum) : Statement (.lXor rD rA rB) :=
  rrr_roundTrip (j := 96) rfl (by decide) rD rA rB
theorem EncodingRoundTrip.lXori (rD : RegNum) (rA : RegNum) (imm : BitVec 16) : Statement (.lXori rD rA imm) :=
  ri_roundTrip (j := 97) rfl (by decide) rD rA imm
theorem EncodingRoundTrip.lfAddD (rD : RegNum) (rA : RegNum) (rB : RegNum) : Statement (.lfAddD rD rA rB) :=
  f3_roundTrip (j := 98) rfl (by decide) rD rA rB
theorem EncodingRoundTrip.lfAddS (rD : RegNum) (rA : RegNum) (rB : RegNum) : Statement (.lfAddS rD rA rB) :=
  f3_roundTrip (j := 99) rfl (by decide) rD rA rB
theorem EncodingRoundTrip.lfCust1D (rA : RegNum) (rB : RegNum) (custom : BitVec 12) : Statement (.lfCust1D rA rB custom) :=
  fcust_roundTrip (j := 100) rfl (by decide) rA rB custom
theorem EncodingRoundTrip.lfCust1S (rA : RegNum) (rB : RegNum) (custom : BitVec 12) : Statement (.lfCust1S rA rB custom) :=
  fcust_roundTrip (j := 101) rfl (by decide) rA rB custom
theorem EncodingRoundTrip.lfDivD (rD : RegNum) (rA : RegNum) (rB : RegNum) : Statement (.lfDivD rD rA rB) :=
  f3_roundTrip (j := 102) rfl (by decide) rD rA rB
theorem EncodingRoundTrip.lfDivS (rD : RegNum) (rA : RegNum) (rB : RegNum) : Statement (.lfDivS rD rA rB) :=
  f3_roundTrip (j := 103) rfl (by decide) rD rA rB
theorem EncodingRoundTrip.lfFtoiD (rD : RegNum) (rA : RegNum) : Statement (.lfFtoiD rD rA) :=
  f2_roundTrip (j := 104) rfl (by decide) rD rA
theorem EncodingRoundTrip.lfFtoiS (rD : RegNum) (rA : RegNum) : Statement (.lfFtoiS rD rA) :=
  f2_roundTrip (j := 105) rfl (by decide) rD rA
theorem EncodingRoundTrip.lfItofD (rD : RegNum) (rA : RegNum) : Statement (.lfItofD rD rA) :=
  f2_roundTrip (j := 106) rfl (by decide) rD rA
theorem EncodingRoundTrip.lfItofS (rD : RegNum) (rA : RegNum) : Statement (.lfItofS rD rA) :=
  f2_roundTrip (j := 107) rfl (by decide) rD rA
theorem EncodingRoundTrip.lfMaddD (rD : RegNum) (rA : RegNum) (rB : RegNum) : Statement (.lfMaddD rD rA rB) :=
  f3_roundTrip (j := 108) rfl (by decide) rD rA rB
theorem EncodingRoundTrip.lfMaddS (rD : RegNum) (rA : RegNum) (rB : RegNum) : Statement (.lfMaddS rD rA rB) :=
  f3_roundTrip (j := 109) rfl (by decide) rD rA rB
theorem EncodingRoundTrip.lfMulD (rD : RegNum) (rA : RegNum) (rB : RegNum) : Statement (.lfMulD rD rA rB) :=
  f3_roundTrip (j := 110) rfl (by decide) rD rA rB
theorem EncodingRoundTrip.lfMulS (rD : RegNum) (rA : RegNum) (rB : RegNum) : Statement (.lfMulS rD rA rB) :=
  f3_roundTrip (j := 111) rfl (by decide) rD rA rB
theorem EncodingRoundTrip.lfRemD (rD : RegNum) (rA : RegNum) (rB : RegNum) : Statement (.lfRemD rD rA rB) :=
  f3_roundTrip (j := 112) rfl (by decide) rD rA rB
theorem EncodingRoundTrip.lfRemS (rD : RegNum) (rA : RegNum) (rB : RegNum) : Statement (.lfRemS rD rA rB) :=
  f3_roundTrip (j := 113) rfl (by decide) rD rA rB
theorem EncodingRoundTrip.lfSfeqD (rA : RegNum) (rB : RegNum) : Statement (.lfSfeqD rA rB) :=
  fc_roundTrip (j := 114) rfl (by decide) rA rB
theorem EncodingRoundTrip.lfSfeqS (rA : RegNum) (rB : RegNum) : Statement (.lfSfeqS rA rB) :=
  fc_roundTrip (j := 115) rfl (by decide) rA rB
theorem EncodingRoundTrip.lfSfgeD (rA : RegNum) (rB : RegNum) : Statement (.lfSfgeD rA rB) :=
  fc_roundTrip (j := 116) rfl (by decide) rA rB
theorem EncodingRoundTrip.lfSfgeS (rA : RegNum) (rB : RegNum) : Statement (.lfSfgeS rA rB) :=
  fc_roundTrip (j := 117) rfl (by decide) rA rB
theorem EncodingRoundTrip.lfSfgtD (rA : RegNum) (rB : RegNum) : Statement (.lfSfgtD rA rB) :=
  fc_roundTrip (j := 118) rfl (by decide) rA rB
theorem EncodingRoundTrip.lfSfgtS (rA : RegNum) (rB : RegNum) : Statement (.lfSfgtS rA rB) :=
  fc_roundTrip (j := 119) rfl (by decide) rA rB
theorem EncodingRoundTrip.lfSfleD (rA : RegNum) (rB : RegNum) : Statement (.lfSfleD rA rB) :=
  fc_roundTrip (j := 120) rfl (by decide) rA rB
theorem EncodingRoundTrip.lfSfleS (rA : RegNum) (rB : RegNum) : Statement (.lfSfleS rA rB) :=
  fc_roundTrip (j := 121) rfl (by decide) rA rB
theorem EncodingRoundTrip.lfSfltD (rA : RegNum) (rB : RegNum) : Statement (.lfSfltD rA rB) :=
  fc_roundTrip (j := 122) rfl (by decide) rA rB
theorem EncodingRoundTrip.lfSfltS (rA : RegNum) (rB : RegNum) : Statement (.lfSfltS rA rB) :=
  fc_roundTrip (j := 123) rfl (by decide) rA rB
theorem EncodingRoundTrip.lfSfneD (rA : RegNum) (rB : RegNum) : Statement (.lfSfneD rA rB) :=
  fc_roundTrip (j := 124) rfl (by decide) rA rB
theorem EncodingRoundTrip.lfSfneS (rA : RegNum) (rB : RegNum) : Statement (.lfSfneS rA rB) :=
  fc_roundTrip (j := 125) rfl (by decide) rA rB
theorem EncodingRoundTrip.lfSubD (rD : RegNum) (rA : RegNum) (rB : RegNum) : Statement (.lfSubD rD rA rB) :=
  f3_roundTrip (j := 126) rfl (by decide) rD rA rB
theorem EncodingRoundTrip.lfSubS (rD : RegNum) (rA : RegNum) (rB : RegNum) : Statement (.lfSubS rD rA rB) :=
  f3_roundTrip (j := 127) rfl (by decide) rD rA rB
theorem EncodingRoundTrip.lvAddB (rD : RegNum) (rA : RegNum) (rB : RegNum) : Statement (.lvAddB rD rA rB) :=
  v3_roundTrip (j := 128) rfl (by decide) rD rA rB
theorem EncodingRoundTrip.lvAddH (rD : RegNum) (rA : RegNum) (rB : RegNum) : Statement (.lvAddH rD rA rB) :=
  v3_roundTrip (j := 129) rfl (by decide) rD rA rB
theorem EncodingRoundTrip.lvAddsB (rD : RegNum) (rA : RegNum) (rB : RegNum) : Statement (.lvAddsB rD rA rB) :=
  v3_roundTrip (j := 130) rfl (by decide) rD rA rB
theorem EncodingRoundTrip.lvAddsH (rD : RegNum) (rA : RegNum) (rB : RegNum) : Statement (.lvAddsH rD rA rB) :=
  v3_roundTrip (j := 131) rfl (by decide) rD rA rB
theorem EncodingRoundTrip.lvAdduB (rD : RegNum) (rA : RegNum) (rB : RegNum) : Statement (.lvAdduB rD rA rB) :=
  v3_roundTrip (j := 132) rfl (by decide) rD rA rB
theorem EncodingRoundTrip.lvAdduH (rD : RegNum) (rA : RegNum) (rB : RegNum) : Statement (.lvAdduH rD rA rB) :=
  v3_roundTrip (j := 133) rfl (by decide) rD rA rB
theorem EncodingRoundTrip.lvAddusB (rD : RegNum) (rA : RegNum) (rB : RegNum) : Statement (.lvAddusB rD rA rB) :=
  v3_roundTrip (j := 134) rfl (by decide) rD rA rB
theorem EncodingRoundTrip.lvAddusH (rD : RegNum) (rA : RegNum) (rB : RegNum) : Statement (.lvAddusH rD rA rB) :=
  v3_roundTrip (j := 135) rfl (by decide) rD rA rB
theorem EncodingRoundTrip.lvAllEqB (rD : RegNum) (rA : RegNum) (rB : RegNum) : Statement (.lvAllEqB rD rA rB) :=
  v3_roundTrip (j := 136) rfl (by decide) rD rA rB
theorem EncodingRoundTrip.lvAllEqH (rD : RegNum) (rA : RegNum) (rB : RegNum) : Statement (.lvAllEqH rD rA rB) :=
  v3_roundTrip (j := 137) rfl (by decide) rD rA rB
theorem EncodingRoundTrip.lvAllGeB (rD : RegNum) (rA : RegNum) (rB : RegNum) : Statement (.lvAllGeB rD rA rB) :=
  v3_roundTrip (j := 138) rfl (by decide) rD rA rB
theorem EncodingRoundTrip.lvAllGeH (rD : RegNum) (rA : RegNum) (rB : RegNum) : Statement (.lvAllGeH rD rA rB) :=
  v3_roundTrip (j := 139) rfl (by decide) rD rA rB
theorem EncodingRoundTrip.lvAllGtB (rD : RegNum) (rA : RegNum) (rB : RegNum) : Statement (.lvAllGtB rD rA rB) :=
  v3_roundTrip (j := 140) rfl (by decide) rD rA rB
theorem EncodingRoundTrip.lvAllGtH (rD : RegNum) (rA : RegNum) (rB : RegNum) : Statement (.lvAllGtH rD rA rB) :=
  v3_roundTrip (j := 141) rfl (by decide) rD rA rB
theorem EncodingRoundTrip.lvAllLeB (rD : RegNum) (rA : RegNum) (rB : RegNum) : Statement (.lvAllLeB rD rA rB) :=
  v3_roundTrip (j := 142) rfl (by decide) rD rA rB
theorem EncodingRoundTrip.lvAllLeH (rD : RegNum) (rA : RegNum) (rB : RegNum) : Statement (.lvAllLeH rD rA rB) :=
  v3_roundTrip (j := 143) rfl (by decide) rD rA rB
theorem EncodingRoundTrip.lvAllLtB (rD : RegNum) (rA : RegNum) (rB : RegNum) : Statement (.lvAllLtB rD rA rB) :=
  v3_roundTrip (j := 144) rfl (by decide) rD rA rB
theorem EncodingRoundTrip.lvAllLtH (rD : RegNum) (rA : RegNum) (rB : RegNum) : Statement (.lvAllLtH rD rA rB) :=
  v3_roundTrip (j := 145) rfl (by decide) rD rA rB
theorem EncodingRoundTrip.lvAllNeB (rD : RegNum) (rA : RegNum) (rB : RegNum) : Statement (.lvAllNeB rD rA rB) :=
  v3_roundTrip (j := 146) rfl (by decide) rD rA rB
theorem EncodingRoundTrip.lvAllNeH (rD : RegNum) (rA : RegNum) (rB : RegNum) : Statement (.lvAllNeH rD rA rB) :=
  v3_roundTrip (j := 147) rfl (by decide) rD rA rB
theorem EncodingRoundTrip.lvAnd (rD : RegNum) (rA : RegNum) (rB : RegNum) : Statement (.lvAnd rD rA rB) :=
  v3_roundTrip (j := 148) rfl (by decide) rD rA rB
theorem EncodingRoundTrip.lvAnyEqB (rD : RegNum) (rA : RegNum) (rB : RegNum) : Statement (.lvAnyEqB rD rA rB) :=
  v3_roundTrip (j := 149) rfl (by decide) rD rA rB
theorem EncodingRoundTrip.lvAnyEqH (rD : RegNum) (rA : RegNum) (rB : RegNum) : Statement (.lvAnyEqH rD rA rB) :=
  v3_roundTrip (j := 150) rfl (by decide) rD rA rB
theorem EncodingRoundTrip.lvAnyGeB (rD : RegNum) (rA : RegNum) (rB : RegNum) : Statement (.lvAnyGeB rD rA rB) :=
  v3_roundTrip (j := 151) rfl (by decide) rD rA rB
theorem EncodingRoundTrip.lvAnyGeH (rD : RegNum) (rA : RegNum) (rB : RegNum) : Statement (.lvAnyGeH rD rA rB) :=
  v3_roundTrip (j := 152) rfl (by decide) rD rA rB
theorem EncodingRoundTrip.lvAnyGtB (rD : RegNum) (rA : RegNum) (rB : RegNum) : Statement (.lvAnyGtB rD rA rB) :=
  v3_roundTrip (j := 153) rfl (by decide) rD rA rB
theorem EncodingRoundTrip.lvAnyGtH (rD : RegNum) (rA : RegNum) (rB : RegNum) : Statement (.lvAnyGtH rD rA rB) :=
  v3_roundTrip (j := 154) rfl (by decide) rD rA rB
theorem EncodingRoundTrip.lvAnyLeB (rD : RegNum) (rA : RegNum) (rB : RegNum) : Statement (.lvAnyLeB rD rA rB) :=
  v3_roundTrip (j := 155) rfl (by decide) rD rA rB
theorem EncodingRoundTrip.lvAnyLeH (rD : RegNum) (rA : RegNum) (rB : RegNum) : Statement (.lvAnyLeH rD rA rB) :=
  v3_roundTrip (j := 156) rfl (by decide) rD rA rB
theorem EncodingRoundTrip.lvAnyLtB (rD : RegNum) (rA : RegNum) (rB : RegNum) : Statement (.lvAnyLtB rD rA rB) :=
  v3_roundTrip (j := 157) rfl (by decide) rD rA rB
theorem EncodingRoundTrip.lvAnyLtH (rD : RegNum) (rA : RegNum) (rB : RegNum) : Statement (.lvAnyLtH rD rA rB) :=
  v3_roundTrip (j := 158) rfl (by decide) rD rA rB
theorem EncodingRoundTrip.lvAnyNeB (rD : RegNum) (rA : RegNum) (rB : RegNum) : Statement (.lvAnyNeB rD rA rB) :=
  v3_roundTrip (j := 159) rfl (by decide) rD rA rB
theorem EncodingRoundTrip.lvAnyNeH (rD : RegNum) (rA : RegNum) (rB : RegNum) : Statement (.lvAnyNeH rD rA rB) :=
  v3_roundTrip (j := 160) rfl (by decide) rD rA rB
theorem EncodingRoundTrip.lvAvgB (rD : RegNum) (rA : RegNum) (rB : RegNum) : Statement (.lvAvgB rD rA rB) :=
  v3_roundTrip (j := 161) rfl (by decide) rD rA rB
theorem EncodingRoundTrip.lvAvgH (rD : RegNum) (rA : RegNum) (rB : RegNum) : Statement (.lvAvgH rD rA rB) :=
  v3_roundTrip (j := 162) rfl (by decide) rD rA rB
theorem EncodingRoundTrip.lvCmpEqB (rD : RegNum) (rA : RegNum) (rB : RegNum) : Statement (.lvCmpEqB rD rA rB) :=
  v3_roundTrip (j := 163) rfl (by decide) rD rA rB
theorem EncodingRoundTrip.lvCmpEqH (rD : RegNum) (rA : RegNum) (rB : RegNum) : Statement (.lvCmpEqH rD rA rB) :=
  v3_roundTrip (j := 164) rfl (by decide) rD rA rB
theorem EncodingRoundTrip.lvCmpGeB (rD : RegNum) (rA : RegNum) (rB : RegNum) : Statement (.lvCmpGeB rD rA rB) :=
  v3_roundTrip (j := 165) rfl (by decide) rD rA rB
theorem EncodingRoundTrip.lvCmpGeH (rD : RegNum) (rA : RegNum) (rB : RegNum) : Statement (.lvCmpGeH rD rA rB) :=
  v3_roundTrip (j := 166) rfl (by decide) rD rA rB
theorem EncodingRoundTrip.lvCmpGtB (rD : RegNum) (rA : RegNum) (rB : RegNum) : Statement (.lvCmpGtB rD rA rB) :=
  v3_roundTrip (j := 167) rfl (by decide) rD rA rB
theorem EncodingRoundTrip.lvCmpGtH (rD : RegNum) (rA : RegNum) (rB : RegNum) : Statement (.lvCmpGtH rD rA rB) :=
  v3_roundTrip (j := 168) rfl (by decide) rD rA rB
theorem EncodingRoundTrip.lvCmpLeB (rD : RegNum) (rA : RegNum) (rB : RegNum) : Statement (.lvCmpLeB rD rA rB) :=
  v3_roundTrip (j := 169) rfl (by decide) rD rA rB
theorem EncodingRoundTrip.lvCmpLeH (rD : RegNum) (rA : RegNum) (rB : RegNum) : Statement (.lvCmpLeH rD rA rB) :=
  v3_roundTrip (j := 170) rfl (by decide) rD rA rB
theorem EncodingRoundTrip.lvCmpLtB (rD : RegNum) (rA : RegNum) (rB : RegNum) : Statement (.lvCmpLtB rD rA rB) :=
  v3_roundTrip (j := 171) rfl (by decide) rD rA rB
theorem EncodingRoundTrip.lvCmpLtH (rD : RegNum) (rA : RegNum) (rB : RegNum) : Statement (.lvCmpLtH rD rA rB) :=
  v3_roundTrip (j := 172) rfl (by decide) rD rA rB
theorem EncodingRoundTrip.lvCmpNeB (rD : RegNum) (rA : RegNum) (rB : RegNum) : Statement (.lvCmpNeB rD rA rB) :=
  v3_roundTrip (j := 173) rfl (by decide) rD rA rB
theorem EncodingRoundTrip.lvCmpNeH (rD : RegNum) (rA : RegNum) (rB : RegNum) : Statement (.lvCmpNeH rD rA rB) :=
  v3_roundTrip (j := 174) rfl (by decide) rD rA rB
theorem EncodingRoundTrip.lvCust1 (hi : BitVec 18) (lo : BitVec 4) : Statement (.lvCust1 hi lo) :=
  vcust_roundTrip (j := 175) rfl (by decide) hi lo
theorem EncodingRoundTrip.lvCust2 (hi : BitVec 18) (lo : BitVec 4) : Statement (.lvCust2 hi lo) :=
  vcust_roundTrip (j := 176) rfl (by decide) hi lo
theorem EncodingRoundTrip.lvCust3 (hi : BitVec 18) (lo : BitVec 4) : Statement (.lvCust3 hi lo) :=
  vcust_roundTrip (j := 177) rfl (by decide) hi lo
theorem EncodingRoundTrip.lvCust4 (hi : BitVec 18) (lo : BitVec 4) : Statement (.lvCust4 hi lo) :=
  vcust_roundTrip (j := 178) rfl (by decide) hi lo
theorem EncodingRoundTrip.lvMaddsH (rD : RegNum) (rA : RegNum) (rB : RegNum) : Statement (.lvMaddsH rD rA rB) :=
  v3_roundTrip (j := 179) rfl (by decide) rD rA rB
theorem EncodingRoundTrip.lvMaxB (rD : RegNum) (rA : RegNum) (rB : RegNum) : Statement (.lvMaxB rD rA rB) :=
  v3_roundTrip (j := 180) rfl (by decide) rD rA rB
theorem EncodingRoundTrip.lvMaxH (rD : RegNum) (rA : RegNum) (rB : RegNum) : Statement (.lvMaxH rD rA rB) :=
  v3_roundTrip (j := 181) rfl (by decide) rD rA rB
theorem EncodingRoundTrip.lvMergeB (rD : RegNum) (rA : RegNum) (rB : RegNum) : Statement (.lvMergeB rD rA rB) :=
  v3_roundTrip (j := 182) rfl (by decide) rD rA rB
theorem EncodingRoundTrip.lvMergeH (rD : RegNum) (rA : RegNum) (rB : RegNum) : Statement (.lvMergeH rD rA rB) :=
  v3_roundTrip (j := 183) rfl (by decide) rD rA rB
theorem EncodingRoundTrip.lvMinB (rD : RegNum) (rA : RegNum) (rB : RegNum) : Statement (.lvMinB rD rA rB) :=
  v3_roundTrip (j := 184) rfl (by decide) rD rA rB
theorem EncodingRoundTrip.lvMinH (rD : RegNum) (rA : RegNum) (rB : RegNum) : Statement (.lvMinH rD rA rB) :=
  v3_roundTrip (j := 185) rfl (by decide) rD rA rB
theorem EncodingRoundTrip.lvMsubsH (rD : RegNum) (rA : RegNum) (rB : RegNum) : Statement (.lvMsubsH rD rA rB) :=
  v3_roundTrip (j := 186) rfl (by decide) rD rA rB
theorem EncodingRoundTrip.lvMulsH (rD : RegNum) (rA : RegNum) (rB : RegNum) : Statement (.lvMulsH rD rA rB) :=
  v3_roundTrip (j := 187) rfl (by decide) rD rA rB
theorem EncodingRoundTrip.lvNand (rD : RegNum) (rA : RegNum) (rB : RegNum) : Statement (.lvNand rD rA rB) :=
  v3_roundTrip (j := 188) rfl (by decide) rD rA rB
theorem EncodingRoundTrip.lvNor (rD : RegNum) (rA : RegNum) (rB : RegNum) : Statement (.lvNor rD rA rB) :=
  v3_roundTrip (j := 189) rfl (by decide) rD rA rB
theorem EncodingRoundTrip.lvOr (rD : RegNum) (rA : RegNum) (rB : RegNum) : Statement (.lvOr rD rA rB) :=
  v3_roundTrip (j := 190) rfl (by decide) rD rA rB
theorem EncodingRoundTrip.lvPackB (rD : RegNum) (rA : RegNum) (rB : RegNum) : Statement (.lvPackB rD rA rB) :=
  v3_roundTrip (j := 191) rfl (by decide) rD rA rB
theorem EncodingRoundTrip.lvPackH (rD : RegNum) (rA : RegNum) (rB : RegNum) : Statement (.lvPackH rD rA rB) :=
  v3_roundTrip (j := 192) rfl (by decide) rD rA rB
theorem EncodingRoundTrip.lvPacksB (rD : RegNum) (rA : RegNum) (rB : RegNum) : Statement (.lvPacksB rD rA rB) :=
  v3_roundTrip (j := 193) rfl (by decide) rD rA rB
theorem EncodingRoundTrip.lvPacksH (rD : RegNum) (rA : RegNum) (rB : RegNum) : Statement (.lvPacksH rD rA rB) :=
  v3_roundTrip (j := 194) rfl (by decide) rD rA rB
theorem EncodingRoundTrip.lvPackusB (rD : RegNum) (rA : RegNum) (rB : RegNum) : Statement (.lvPackusB rD rA rB) :=
  v3_roundTrip (j := 195) rfl (by decide) rD rA rB
theorem EncodingRoundTrip.lvPackusH (rD : RegNum) (rA : RegNum) (rB : RegNum) : Statement (.lvPackusH rD rA rB) :=
  v3_roundTrip (j := 196) rfl (by decide) rD rA rB
theorem EncodingRoundTrip.lvPermN (rD : RegNum) (rA : RegNum) (rB : RegNum) : Statement (.lvPermN rD rA rB) :=
  v3_roundTrip (j := 197) rfl (by decide) rD rA rB
theorem EncodingRoundTrip.lvRlB (rD : RegNum) (rA : RegNum) (rB : RegNum) : Statement (.lvRlB rD rA rB) :=
  v3_roundTrip (j := 198) rfl (by decide) rD rA rB
theorem EncodingRoundTrip.lvRlH (rD : RegNum) (rA : RegNum) (rB : RegNum) : Statement (.lvRlH rD rA rB) :=
  v3_roundTrip (j := 199) rfl (by decide) rD rA rB
theorem EncodingRoundTrip.lvSll (rD : RegNum) (rA : RegNum) (rB : RegNum) : Statement (.lvSll rD rA rB) :=
  v3_roundTrip (j := 200) rfl (by decide) rD rA rB
theorem EncodingRoundTrip.lvSllB (rD : RegNum) (rA : RegNum) (rB : RegNum) : Statement (.lvSllB rD rA rB) :=
  v3_roundTrip (j := 201) rfl (by decide) rD rA rB
theorem EncodingRoundTrip.lvSllH (rD : RegNum) (rA : RegNum) (rB : RegNum) : Statement (.lvSllH rD rA rB) :=
  v3_roundTrip (j := 202) rfl (by decide) rD rA rB
theorem EncodingRoundTrip.lvSraB (rD : RegNum) (rA : RegNum) (rB : RegNum) : Statement (.lvSraB rD rA rB) :=
  v3_roundTrip (j := 203) rfl (by decide) rD rA rB
theorem EncodingRoundTrip.lvSraH (rD : RegNum) (rA : RegNum) (rB : RegNum) : Statement (.lvSraH rD rA rB) :=
  v3_roundTrip (j := 204) rfl (by decide) rD rA rB
theorem EncodingRoundTrip.lvSrl (rD : RegNum) (rA : RegNum) (rB : RegNum) : Statement (.lvSrl rD rA rB) :=
  v3_roundTrip (j := 205) rfl (by decide) rD rA rB
theorem EncodingRoundTrip.lvSrlB (rD : RegNum) (rA : RegNum) (rB : RegNum) : Statement (.lvSrlB rD rA rB) :=
  v3_roundTrip (j := 206) rfl (by decide) rD rA rB
theorem EncodingRoundTrip.lvSrlH (rD : RegNum) (rA : RegNum) (rB : RegNum) : Statement (.lvSrlH rD rA rB) :=
  v3_roundTrip (j := 207) rfl (by decide) rD rA rB
theorem EncodingRoundTrip.lvSubB (rD : RegNum) (rA : RegNum) (rB : RegNum) : Statement (.lvSubB rD rA rB) :=
  v3_roundTrip (j := 208) rfl (by decide) rD rA rB
theorem EncodingRoundTrip.lvSubH (rD : RegNum) (rA : RegNum) (rB : RegNum) : Statement (.lvSubH rD rA rB) :=
  v3_roundTrip (j := 209) rfl (by decide) rD rA rB
theorem EncodingRoundTrip.lvSubsB (rD : RegNum) (rA : RegNum) (rB : RegNum) : Statement (.lvSubsB rD rA rB) :=
  v3_roundTrip (j := 210) rfl (by decide) rD rA rB
theorem EncodingRoundTrip.lvSubsH (rD : RegNum) (rA : RegNum) (rB : RegNum) : Statement (.lvSubsH rD rA rB) :=
  v3_roundTrip (j := 211) rfl (by decide) rD rA rB
theorem EncodingRoundTrip.lvSubuB (rD : RegNum) (rA : RegNum) (rB : RegNum) : Statement (.lvSubuB rD rA rB) :=
  v3_roundTrip (j := 212) rfl (by decide) rD rA rB
theorem EncodingRoundTrip.lvSubuH (rD : RegNum) (rA : RegNum) (rB : RegNum) : Statement (.lvSubuH rD rA rB) :=
  v3_roundTrip (j := 213) rfl (by decide) rD rA rB
theorem EncodingRoundTrip.lvSubusB (rD : RegNum) (rA : RegNum) (rB : RegNum) : Statement (.lvSubusB rD rA rB) :=
  v3_roundTrip (j := 214) rfl (by decide) rD rA rB
theorem EncodingRoundTrip.lvSubusH (rD : RegNum) (rA : RegNum) (rB : RegNum) : Statement (.lvSubusH rD rA rB) :=
  v3_roundTrip (j := 215) rfl (by decide) rD rA rB
theorem EncodingRoundTrip.lvUnpackB (rD : RegNum) (rA : RegNum) (rB : RegNum) : Statement (.lvUnpackB rD rA rB) :=
  v3_roundTrip (j := 216) rfl (by decide) rD rA rB
theorem EncodingRoundTrip.lvUnpackH (rD : RegNum) (rA : RegNum) (rB : RegNum) : Statement (.lvUnpackH rD rA rB) :=
  v3_roundTrip (j := 217) rfl (by decide) rD rA rB
theorem EncodingRoundTrip.lvXor (rD : RegNum) (rA : RegNum) (rB : RegNum) : Statement (.lvXor rD rA rB) :=
  v3_roundTrip (j := 218) rfl (by decide) rD rA rB

end Sys2Proof.Laws
end

