-- ==== Sys2Proof/Tests/Slice0.lean ====
section
/-! SUPPORT. The model's own tests: words written out from the encodings of the spec, one step on a
small state for vectors of spec/95 and spec/96, the smoke test of WellFormed, and, for every statement
of Obligations.lean that has hypotheses, a state and operands that meet them. -/

set_option Elab.async false

namespace Sys2Proof.Tests

open Sys2Proof Sys2Proof.Machine

/-! ### Small states -/

/-- The reset state at 0x2000, at `XLEN = 32` and, with every unit, at 64. -/
def at32 : State := { State.reset with pc := 0x2000#64 }
def at64 : State := { resetWith fullConfig with pc := 0x2000#64 }

/-- A state under another configuration. -/
def under (c : Config) : State := { resetWith c with pc := 0x2000#64 }

/-- A state with words placed in memory. -/
def withWords (ws : List (Nat × BitVec 32)) (s : State) : State :=
  { s with mem := ws.foldl (fun m p => writeBytes m p.1 (bytesOfWord p.2)) s.mem }

/-- The state in user mode. -/
def user (s : State) : State := { s with sr := 0x00008000#32 }

/-- The state an outcome gives. -/
def after (o : Machine.Outcome) : State :=
  match o with
  | .next t => t
  | _ => State.reset

/-- Numbers read off the state after one word is executed; none where there is no next state. -/
def run (s : State) (w : InsnWord) (look : State → List Nat) : List Nat :=
  match runBytes (bytesOfWord w) s with
  | .next t => look t
  | _ => []

/-- The refusal of one word, if it is refused. -/
def refusal (s : State) (w : InsnWord) : Option Refusal :=
  match runBytes (bytesOfWord w) s with
  | .refused r => some r
  | _ => none

/-! ### Words written out from the encodings (R104 to R110, R115) -/

/-- `111000 00011 00001 00010 0 00 0000 0000`. -/
theorem test_decode_l_add : decodeWord 0xE0611000#32 = .instr (.lAdd 3 1 2) := by decide +kernel
/-- `100111 00011 00001 1111111111111111`. -/
theorem test_decode_l_addi : decodeWord 0x9C61FFFF#32 = .instr (.lAddi 3 1 0xFFFF) := by decide +kernel
/-- `000110 00011 000 0 0 0001001000110100`. -/
theorem test_decode_l_movhi : decodeWord 0x18601234#32 = .instr (.lMovhi 3 0x1234) := by decide +kernel
/-- `000110 00011 000 0 1 0000000000000000`. -/
theorem test_decode_l_macrc : decodeWord 0x18610000#32 = .instr (.lMacrc 3) := by decide +kernel
/-- `111000 00011 00001 00010 0 00 00 00 1000`. -/
theorem test_decode_l_sll : decodeWord 0xE0611008#32 = .instr (.lSll 3 1 2) := by decide +kernel
/-- `101110 00011 00001 00000000 11 111111`. -/
theorem test_decode_l_rori : decodeWord 0xB86100FF#32 = .instr (.lRori 3 1 63) := by decide +kernel
/-- `111000 00011 00001 00000 0 00 00 00 1111`. -/
theorem test_decode_l_ff1 : decodeWord 0xE061000F#32 = .instr (.lFf1 3 1 0) := by decide +kernel
/-- `101111 00000 00001 1000000000000000`. -/
theorem test_decode_l_sfeqi : decodeWord 0xBC018000#32 = .instr (.lSfeqi 1 0x8000) := by decide +kernel
/-- `111001 00010 00001 00010 00000000000`. -/
theorem test_decode_l_sfgtu : decodeWord 0xE4411000#32 = .instr (.lSfgtu 1 2) := by decide +kernel
/-- `000000 11111111111111111111111111`. -/
theorem test_decode_l_j : decodeWord 0x03FFFFFF#32 = .instr (.lJ 0x3FFFFFF) := by decide +kernel
/-- `010010 0000000000 00010 00000000000`. -/
theorem test_decode_l_jalr : decodeWord 0x48001000#32 = .instr (.lJalr 2) := by decide +kernel
/-- `100001 00011 00001 1111111111111100`. -/
theorem test_decode_l_lwz : decodeWord 0x8461FFFC#32 = .instr (.lLwz 3 1 0xFFFC) := by decide +kernel
/-- `110101 11111 00001 00010 11111111100`. -/
theorem test_decode_l_sw : decodeWord 0xD7E117FC#32 = .instr (.lSw 1 2 0xFFFC) := by decide +kernel
/-- `110011 00000 00001 00010 00000000100`. -/
theorem test_decode_l_swa : decodeWord 0xCC011004#32 = .instr (.lSwa 1 2 4) := by decide +kernel
/-- `110001 00000 00001 00010 0000000 0001`. -/
theorem test_decode_l_mac : decodeWord 0xC4011001#32 = .instr (.lMac 1 2) := by decide +kernel
/-- `010011 00000 00001 1111111111111111`. -/
theorem test_decode_l_maci : decodeWord 0x4C01FFFF#32 = .instr (.lMaci 1 0xFFFF) := by decide +kernel
/-- `0010000000000000 0000000000000111`. -/
theorem test_decode_l_sys : decodeWord 0x20000007#32 = .instr (.lSys 7) := by decide +kernel
/-- `001001 00000000000000000000000000`. -/
theorem test_decode_l_rfe : decodeWord 0x24000000#32 = .instr (.lRfe) := by decide +kernel
/-- `110000 00101 00000 00101 00000000001`. -/
theorem test_decode_l_mtspr : decodeWord 0xC0A02801#32 = .instr (.lMtspr 0 5 0x2801) := by decide +kernel
/-- `111100 00011 00001 00010 000001 00010`. -/
theorem test_decode_l_cust5 : decodeWord 0xF0611022#32 = .instr (.lCust5 3 1 2 1 2) := by decide +kernel
/-- `110010 00011 00001 00010 000 00000000`. -/
theorem test_decode_lf_add_s : decodeWord 0xC8611000#32 = .instr (.lfAddS 3 1 2) := by decide +kernel
/-- `110010 00000 00001 00010 000 00011000`. -/
theorem test_decode_lf_sfeq_d : decodeWord 0xC8011018#32 = .instr (.lfSfeqD 1 2) := by decide +kernel
/-- `110010 00011 00001 00010 101 1110 0110`. -/
theorem test_decode_lf_cust1_d : decodeWord 0xC86115E6#32 = .instr (.lfCust1D 1 2 0x1D6) := by decide +kernel
/-- `001010 00011 00001 00010 000 00110000`. -/
theorem test_decode_lv_add_b : decodeWord 0x28611030#32 = .instr (.lvAddB 3 1 2) := by decide +kernel
/-- `001010 000000000000000001 1100 0101`. -/
theorem test_decode_lv_cust1 : decodeWord 0x280001C5#32 = .instr (.lvCust1 1 5) := by decide +kernel

/-! ### Vectors -/

/-- R136: vector of spec/95 or spec/96, section 2.1, row 4, l.add r3,r1,r2. -/
theorem test_l_add :
    run ((at32.setReg 1#5 0x80000000#64).setReg 2#5 0x80000000#64) 0xE0611000#32
      (fun t => [t.uval 3, t.flagCY.toNat, t.flagOV.toNat]) = [0, 1, 1] := by decide +kernel

/-- R137: vector of spec/95 or spec/96, section 2.1, row 7, l.addc r3,r1,r2. -/
theorem test_l_addc :
    run (((at32.setReg 1#5 0xFFFFFFFF#64).setReg 2#5 0xFFFFFFFF#64).setCY true) 0xE0611001#32
      (fun t => [t.uval 3, t.flagCY.toNat, t.flagOV.toNat]) = [0xFFFFFFFF, 1, 0] := by decide +kernel

/-- R138: vector of spec/95 or spec/96, section 2.1, row 13, l.addi r3,r1,-32768. -/
theorem test_l_addi :
    run (at32.setReg 1#5 0x80000000#64) 0x9C618000#32
      (fun t => [t.uval 3, t.flagCY.toNat, t.flagOV.toNat]) = [0x7FFF8000, 1, 1] := by decide +kernel

/-- R139: vector of spec/95 or spec/96, section 2.1, row 14, l.addic r3,r1,0. -/
theorem test_l_addic :
    run ((at32.setReg 1#5 0xFFFFFFFF#64).setCY true) 0xA0610000#32
      (fun t => [t.uval 3, t.flagCY.toNat, t.flagOV.toNat]) = [0, 1, 0] := by decide +kernel

/-- R167: vector of spec/95 or spec/96, section 2.1, row 19, l.sub r3,r1,r2. -/
theorem test_l_sub :
    run ((at32.setReg 1#5 0x7FFFFFFF#64).setReg 2#5 0xFFFFFFFF#64) 0xE0611002#32
      (fun t => [t.uval 3, t.flagCY.toNat, t.flagOV.toNat]) = [0x80000000, 1, 1] := by decide +kernel

/-- R154: vector of spec/95 or spec/96, section 2.1, row 23, l.mul r3,r1,r2. -/
theorem test_l_mul :
    run (((at32.setReg 1#5 0x80000000#64).setReg 2#5 0xFFFFFFFF#64).setCY true) 0xE0611306#32
      (fun t => [t.uval 3, t.flagCY.toNat, t.flagOV.toNat]) = [0x80000000, 1, 1] := by decide +kernel

/-- R155: vector of spec/95 or spec/96, section 2.1, row 25, l.muli r3,r1,-3. -/
theorem test_l_muli :
    run (at32.setReg 1#5 0x5#64) 0xB061FFFD#32
      (fun t => [t.uval 3, t.flagCY.toNat, t.flagOV.toNat]) = [0xFFFFFFF1, 0, 0] := by decide +kernel

/-- R156: vector of spec/95 or spec/96, section 2.1, row 27, l.mulu r3,r1,r2. -/
theorem test_l_mulu :
    run (((at32.setReg 1#5 0xFFFFFFFF#64).setReg 2#5 0x2#64).setOV true) 0xE061130B#32
      (fun t => [t.uval 3, t.flagCY.toNat, t.flagOV.toNat]) = [0xFFFFFFFE, 1, 1] := by decide +kernel

/-- R143: vector of spec/95 or spec/96, section 2.1, row 30, l.div r3,r1,r2. -/
theorem test_l_div :
    run ((at32.setReg 1#5 0xFFFFFFF9#64).setReg 2#5 0x2#64) 0xE0611309#32
      (fun t => [t.uval 3, t.flagCY.toNat, t.flagOV.toNat]) = [0xFFFFFFFD, 0, 0] := by decide +kernel

/-- R144: vector of spec/95 or spec/96, section 2.1, row 36, l.divu r3,r1,r2. -/
theorem test_l_divu :
    run ((((at32.setReg 1#5 0x7#64).setReg 2#5 0x0#64).setOV false).setCY false) 0xE061130A#32
      (fun t => [t.flagCY.toNat, t.flagOV.toNat]) = [1, 0] := by decide +kernel

/-- R141: vector of spec/95 or spec/96, section 2.2, row 2, l.andi r3,r1,0xFF00. -/
theorem test_l_andi :
    run (at32.setReg 1#5 0x12345678#64) 0xA461FF00#32
      (fun t => [t.uval 3, t.flagF.toNat, t.flagCY.toNat, t.flagOV.toNat]) = [0x5600, 0, 0, 0] := by decide +kernel

/-- R169: vector of spec/95 or spec/96, section 2.2, row 7, l.xori r3,r1,-1. -/
theorem test_l_xori :
    run (at32.setReg 1#5 0x12345678#64) 0xAC61FFFF#32
      (fun t => [t.uval 3, t.flagF.toNat, t.flagCY.toNat, t.flagOV.toNat]) = [0xEDCBA987, 0, 0, 0] := by decide +kernel

/-- R153: vector of spec/95 or spec/96, section 2.2, row 9, l.movhi r3,0x1234. -/
theorem test_l_movhi :
    run (at32.setReg 3#5 0xFFFFFFFF#64) 0x18601234#32
      (fun t => [t.uval 3, t.flagF.toNat, t.flagCY.toNat, t.flagOV.toNat]) = [0x12340000, 0, 0, 0] := by decide +kernel

/-- R142: vector of spec/95 or spec/96, section 2.2, row 12, l.cmov r3,r1,r2. -/
theorem test_l_cmov :
    run (((at32.setReg 1#5 0xAAAAAAAA#64).setReg 2#5 0x55555555#64).setF true) 0xE061100E#32
      (fun t => [t.uval 3, t.flagF.toNat, t.flagCY.toNat, t.flagOV.toNat]) = [0xAAAAAAAA, 1, 0, 0] := by decide +kernel

/-- R162: vector of spec/95 or spec/96, section 2.2, row 16, l.slli r3,r1,4. -/
theorem test_l_slli :
    run (at32.setReg 1#5 0x12345678#64) 0xB8610004#32
      (fun t => [t.uval 3, t.flagF.toNat, t.flagCY.toNat, t.flagOV.toNat]) = [0x23456780, 0, 0, 0] := by decide +kernel

/-- R165: vector of spec/95 or spec/96, section 2.2, row 18, l.srl r3,r1,r2. -/
theorem test_l_srl :
    run ((at32.setReg 1#5 0x80000000#64).setReg 2#5 0x4#64) 0xE0611048#32
      (fun t => [t.uval 3, t.flagF.toNat, t.flagCY.toNat, t.flagOV.toNat]) = [0x8000000, 0, 0, 0] := by decide +kernel

/-- R163: vector of spec/95 or spec/96, section 2.2, row 20, l.sra r3,r1,r2. -/
theorem test_l_sra :
    run ((at32.setReg 1#5 0x80000000#64).setReg 2#5 0x4#64) 0xE0611088#32
      (fun t => [t.uval 3, t.flagF.toNat, t.flagCY.toNat, t.flagOV.toNat]) = [0xF8000000, 0, 0, 0] := by decide +kernel

/-- R164: vector of spec/95 or spec/96, section 2.2, row 22, l.srai r3,r1,31. -/
theorem test_l_srai :
    run (at32.setReg 1#5 0x80000000#64) 0xB861009F#32
      (fun t => [t.uval 3, t.flagF.toNat, t.flagCY.toNat, t.flagOV.toNat]) = [0xFFFFFFFF, 0, 0, 0] := by decide +kernel

/-- R159: vector of spec/95 or spec/96, section 2.2, row 25, l.ror r3,r1,r2. -/
theorem test_l_ror :
    run ((at32.setReg 1#5 0x12345678#64).setReg 2#5 0x28#64) 0xE06110C8#32
      (fun t => [t.uval 3, t.flagF.toNat, t.flagCY.toNat, t.flagOV.toNat]) = [0x78123456, 0, 0, 0] := by decide +kernel

/-- R160: vector of spec/95 or spec/96, section 2.2, row 26, l.rori r3,r1,4. -/
theorem test_l_rori :
    run (at32.setReg 1#5 0x12345678#64) 0xB86100C4#32
      (fun t => [t.uval 3, t.flagF.toNat, t.flagCY.toNat, t.flagOV.toNat]) = [0x81234567, 0, 0, 0] := by decide +kernel

/-- R145: vector of spec/95 or spec/96, section 2.2, row 28, l.extbs r3,r1. -/
theorem test_l_extbs :
    run (at32.setReg 1#5 0x12345680#64) 0xE061004C#32
      (fun t => [t.uval 3, t.flagF.toNat, t.flagCY.toNat, t.flagOV.toNat]) = [0xFFFFFF80, 0, 0, 0] := by decide +kernel

/-- R147: vector of spec/95 or spec/96, section 2.2, row 31, l.exths r3,r1. -/
theorem test_l_exths :
    run (at32.setReg 1#5 0x18000#64) 0xE061000C#32
      (fun t => [t.uval 3, t.flagF.toNat, t.flagCY.toNat, t.flagOV.toNat]) = [0xFFFF8000, 0, 0, 0] := by decide +kernel

/-- R149: vector of spec/95 or spec/96, section 2.2, row 33, l.extws r3,r1. -/
theorem test_l_extws :
    run (at32.setReg 1#5 0x80000000#64) 0xE061000D#32
      (fun t => [t.uval 3, t.flagF.toNat, t.flagCY.toNat, t.flagOV.toNat]) = [0x80000000, 0, 0, 0] := by decide +kernel

/-- R151: vector of spec/95 or spec/96, section 2.2, row 39, l.ff1 r3,r1,r7. -/
theorem test_l_ff1 :
    run ((at32.setReg 1#5 0x8#64).setReg 7#5 0xFFFFFFFF#64) 0xE061380F#32
      (fun t => [t.uval 3, t.flagF.toNat, t.flagCY.toNat, t.flagOV.toNat]) = [4, 0, 0, 0] := by decide +kernel

/-- R152: vector of spec/95 or spec/96, section 2.2, row 40, l.fl1 r3,r1,r0. -/
theorem test_l_fl1 :
    run (at32.setReg 1#5 0x9#64) 0xE061010F#32
      (fun t => [t.uval 3, t.flagF.toNat, t.flagCY.toNat, t.flagOV.toNat]) = [4, 0, 0, 0] := by decide +kernel

/-- R228: vector of spec/95 or spec/96, section 2.5, l.lwz r3,0(r1). -/
theorem test_l_lwz :
    run (withWords [(0x4000, 0x80FF7F01#32), (0x4004, 0xFFFE8000#32), (0x4008, 0x0#32), (0x400C, 0x0#32)] (at32.setReg 1#5 0x4000#64)) 0x84610000#32
      (fun t => [t.uval 3]) = [0x80FF7F01] := by decide +kernel

/-- R227: vector of spec/95 or spec/96, section 2.5, l.lws r3,0(r1). -/
theorem test_l_lws :
    run (withWords [(0x4000, 0x80FF7F01#32), (0x4004, 0xFFFE8000#32), (0x4008, 0x0#32), (0x400C, 0x0#32)] (at32.setReg 1#5 0x4000#64)) 0x88610000#32
      (fun t => [t.uval 3]) = [0x80FF7F01] := by decide +kernel

/-- R221: vector of spec/95 or spec/96, section 2.5, l.lbs r3,0(r1). -/
theorem test_l_lbs :
    run (withWords [(0x4000, 0x80FF7F01#32), (0x4004, 0xFFFE8000#32), (0x4008, 0x0#32), (0x400C, 0x0#32)] (at32.setReg 1#5 0x4000#64)) 0x90610000#32
      (fun t => [t.uval 3]) = [0xFFFFFF80] := by decide +kernel

/-- R224: vector of spec/95 or spec/96, section 2.5, l.lhs r3,0(r1). -/
theorem test_l_lhs :
    run (withWords [(0x4000, 0x80FF7F01#32), (0x4004, 0xFFFE8000#32), (0x4008, 0x0#32), (0x400C, 0x0#32)] (at32.setReg 1#5 0x4000#64)) 0x98610000#32
      (fun t => [t.uval 3]) = [0xFFFF80FF] := by decide +kernel

/-- R225: vector of spec/95 or spec/96, section 2.5, l.lhz r3,0(r1). -/
theorem test_l_lhz :
    run (withWords [(0x4000, 0x80FF7F01#32), (0x4004, 0xFFFE8000#32), (0x4008, 0x0#32), (0x400C, 0x0#32)] (at32.setReg 1#5 0x4000#64)) 0x94610000#32
      (fun t => [t.uval 3]) = [0x80FF] := by decide +kernel

/-- R226: vector of spec/95 or spec/96, section 2.5, l.lwa r3,4(r1). -/
theorem test_l_lwa :
    run (withWords [(0x4000, 0x80FF7F01#32), (0x4004, 0xFFFE8000#32), (0x4008, 0x0#32), (0x400C, 0x0#32)] (at32.setReg 1#5 0x4000#64)) 0x6C610004#32
      (fun t => [t.uval 3, t.resv.getD 1]) = [0xFFFE8000, 0x4004] := by decide +kernel

/-- R232: vector of spec/95 or spec/96, section 2.5, l.sw 0(r1),r2. -/
theorem test_l_sw :
    run (withWords [(0x4000, 0xAAAAAAAA#32), (0x4004, 0xBBBBBBBB#32)] ({ (at32.setReg 1#5 0x4000#64).setReg 2#5 0x55#64 with resv := some 0x4000 })) 0xD4011000#32
      (fun t => [t.resv.getD 1, memNat t.mem 0x4000 4, memNat t.mem 0x4004 4]) = [1, 0x55, 0xBBBBBBBB] := by decide +kernel

/-- R231: vector of spec/95 or spec/96, section 2.5, l.sh 2(r1),r2. -/
theorem test_l_sh :
    run (withWords [(0x4000, 0xAAAAAAAA#32), (0x4004, 0xBBBBBBBB#32)] ((at32.setReg 1#5 0x4000#64).setReg 2#5 0x11223344#64)) 0xDC011002#32
      (fun t => [t.resv.getD 1, memNat t.mem 0x4000 4, memNat t.mem 0x4004 4]) = [1, 0xAAAA3344, 0xBBBBBBBB] := by decide +kernel

/-- R229: vector of spec/95 or spec/96, section 2.5, l.sb 3(r1),r2. -/
theorem test_l_sb :
    run (withWords [(0x4000, 0xAAAAAAAA#32), (0x4004, 0xBBBBBBBB#32)] ({ (at32.setReg 1#5 0x4000#64).setReg 2#5 0x55#64 with resv := some 0x4000 })) 0xD8011003#32
      (fun t => [t.resv.getD 1, memNat t.mem 0x4000 4, memNat t.mem 0x4004 4]) = [1, 0xAAAAAA55, 0xBBBBBBBB] := by decide +kernel

/-- R233: vector of spec/95 or spec/96, section 2.5, l.swa 0(r1),r2. -/
theorem test_l_swa :
    run (withWords [(0x4000, 0xAAAAAAAA#32), (0x4004, 0xBBBBBBBB#32)] ({ (at32.setReg 1#5 0x4000#64).setReg 2#5 0x55#64 with resv := some 0x4000 })) 0xCC011000#32
      (fun t => [t.flagF.toNat, t.resv.getD 1, memNat t.mem 0x4000 4, memNat t.mem 0x4004 4]) = [1, 1, 0x55, 0xBBBBBBBB] :=
      by decide +kernel

/-- R252: vector of spec/95 or spec/96, section 2.6, row 3, l.mac r1,r2. -/
theorem test_l_mac :
    run ((((at32.setAcc 0xFFFFFFFF#64).setReg 1#5 0x1#64).setReg 2#5 0x1#64).setCY true) 0xC4011001#32
      (fun t => [t.machi.toNat, t.maclo.toNat, t.flagCY.toNat, t.flagOV.toNat]) = [1, 0, 1, 0] := by decide +kernel

/-- R253: vector of spec/95 or spec/96, section 2.6, row 7, l.maci r1,0x7FFF. -/
theorem test_l_maci :
    run ((at32.setAcc 0x100000000#64).setReg 1#5 0x10000#64) 0x4C017FFF#32
      (fun t => [t.machi.toNat, t.maclo.toNat, t.flagCY.toNat, t.flagOV.toNat]) = [1, 0x7FFF0000, 0, 0] := by decide +kernel

/-- R255: vector of spec/95 or spec/96, section 2.6, row 9, l.macu r1,r2. -/
theorem test_l_macu :
    run ((((at32.setAcc 0xFFFFFFFFFFFFFFFF#64).setReg 1#5 0x1#64).setReg 2#5 0x1#64).setOV true) 0xC4011003#32
      (fun t => [t.machi.toNat, t.maclo.toNat, t.flagCY.toNat, t.flagOV.toNat]) = [0, 0, 1, 1] := by decide +kernel

/-- R256: vector of spec/95 or spec/96, section 2.6, row 13, l.msb r1,r2. -/
theorem test_l_msb :
    run (((at32.setAcc 0x7FFFFFFFFFFFFFFF#64).setReg 1#5 0xFFFFFFFF#64).setReg 2#5 0x1#64) 0xC4011002#32
      (fun t => [t.machi.toNat, t.maclo.toNat, t.flagCY.toNat, t.flagOV.toNat]) = [0x80000000, 0, 0, 1] := by decide +kernel

/-- R257: vector of spec/95 or spec/96, section 2.6, row 14, l.msbu r1,r2. -/
theorem test_l_msbu :
    run (((at32.setAcc 0x0#64).setReg 1#5 0x3#64).setReg 2#5 0x4#64) 0xC4011004#32
      (fun t => [t.machi.toNat, t.maclo.toNat, t.flagCY.toNat, t.flagOV.toNat]) = [0xFFFFFFFF, 0xFFFFFFF4, 1, 0] :=
      by decide +kernel

/-- R258: vector of spec/95 or spec/96, section 2.6, row 16, l.muld r1,r2. -/
theorem test_l_muld :
    run (((((at32.setAcc 0x1234567812345678#64).setReg 1#5 0x80000000#64).setReg 2#5 0x80000000#64).setOV true).setCY true) 0xE0011307#32
      (fun t => [t.machi.toNat, t.maclo.toNat, t.flagCY.toNat, t.flagOV.toNat]) = [0x40000000, 0, 1, 1] := by decide +kernel

/-- R259: vector of spec/95 or spec/96, section 2.6, row 18, l.muldu r1,r2. -/
theorem test_l_muldu :
    run (((((at32.setAcc 0x0#64).setReg 1#5 0xFFFFFFFF#64).setReg 2#5 0xFFFFFFFF#64).setOV false).setCY false) 0xE001130C#32
      (fun t => [t.machi.toNat, t.maclo.toNat, t.flagCY.toNat, t.flagOV.toNat]) = [0xFFFFFFFE, 1, 0, 0] := by decide +kernel

/-- R254: vector of spec/95 or spec/96, section 2.6, row 20, l.macrc r3. -/
theorem test_l_macrc :
    run ((at32.setAcc 0xFFFFFFFFFFFFFFFE#64).setReg 3#5 0x11111111#64) 0x18610000#32
      (fun t => [t.uval 3, t.machi.toNat, t.maclo.toNat, t.flagCY.toNat, t.flagOV.toNat]) = [0xFFFFFFFE, 0, 0, 0, 0] :=
      by decide +kernel

/-- R181: vector of spec/95 or spec/96, section 2.12, l.sfeqi r1,-1. -/
theorem test_l_sfeqi :
    run (withWords [(0x4000, 0x80FF7F01#32), (0x4004, 0xFFFE8000#32)] (at64.setReg 1#5 0xFFFFFFFF#64)) 0xBC01FFFF#32
      (fun t => [t.flagF.toNat]) = [0] := by decide +kernel

/-- R188: vector of spec/95 or spec/96, section 2.12, l.sfgtu r1,r2. -/
theorem test_l_sfgtu :
    run (withWords [(0x4000, 0x80FF7F01#32), (0x4004, 0xFFFE8000#32)] ((at64.setReg 1#5 0x100000000#64).setReg 2#5 0xFFFFFFFF#64)) 0xE4411000#32
      (fun t => [t.flagF.toNat]) = [1] := by decide +kernel

/-- R223: vector of spec/95 or spec/96, section 2.12, l.ld r3,0(r1). -/
theorem test_l_ld :
    run (withWords [(0x4000, 0x80FF7F01#32), (0x4004, 0xFFFE8000#32)] (at64.setReg 1#5 0x4000#64)) 0x80610000#32
      (fun t => [t.uval 3]) = [0x80FF7F01FFFE8000] := by decide +kernel

/-- R230: vector of spec/95 or spec/96, section 2.12, l.sd 0(r1),r2. -/
theorem test_l_sd :
    run (withWords [(0x4000, 0x80FF7F01#32), (0x4004, 0xFFFE8000#32)] ((at64.setReg 1#5 0x4000#64).setReg 2#5 0x102030405060708#64)) 0xD0011000#32
      (fun t => [memNat t.mem 0x4000 4, memNat t.mem 0x4004 4]) = [0x1020304, 0x5060708] := by decide +kernel

/-- R304: vector of spec/95 or spec/96, section 2.10, a flagless result leaves FPCSR alone. -/
theorem test_lf_add_s :
    run ({ (at64.setReg 1#5 0x3F800000#64).setReg 2#5 0x40000000#64 with fpcsr := 0xD00#32 }) 0xC8611000#32
      (fun t => [t.uval 3, t.fpcsr.toNat]) = [0x40400000, 0xD00] := by decide +kernel

/-- R308: vector of spec/95 or spec/96, section 2.10, rounding toward zero. -/
theorem test_lf_div_s :
    run ({ (at64.setReg 1#5 0x3F800000#64).setReg 2#5 0x40400000#64 with fpcsr := 0x2#32 }) 0xC8611003#32
      (fun t => [t.uval 3, t.fpcsr.toNat]) = [0x3EAAAAAA, 0x102] := by decide +kernel

/-- R307: vector of spec/95 or spec/96, row of rule R307, lf.div.d r3,r1,r2. -/
theorem test_lf_div_d :
    run ((at64.setReg 1#5 0x4018000000000000#64).setReg 2#5 0x4000000000000000#64) 0xC8611013#32
      (fun t => [t.uval 3, t.fpcsr.toNat]) = [0x4008000000000000, 0] := by decide +kernel

/-- R310: vector of spec/95 or spec/96, section 2.10, ftoi, toward zero. -/
theorem test_lf_ftoi_s :
    run ({ at64.setReg 1#5 0xC0200000#64 with fpcsr := 0x2#32 }) 0xC8610005#32
      (fun t => [t.uval 3, t.fpcsr.toNat]) = [0xFFFFFFFE, 0x102] := by decide +kernel

/-- R309: vector of spec/95 or spec/96, row of rule R309, lf.ftoi.d r3,r1. -/
theorem test_lf_ftoi_d :
    run (at64.setReg 1#5 0x4008000000000000#64) 0xC8610015#32 (fun t => [t.uval 3]) = [3] := by decide +kernel

/-- R312: vector of spec/95 or spec/96, section 2.10, itof, inexact. -/
theorem test_lf_itof_s :
    run (at64.setReg 1#5 0x1000001#64) 0xC8610004#32
      (fun t => [t.uval 3, t.fpcsr.toNat]) = [0x4B800000, 0x100] := by decide +kernel

/-- R311: vector of spec/95 or spec/96, row of rule R311, lf.itof.d r3,r1. -/
theorem test_lf_itof_d :
    run (at64.setReg 1#5 0x2#64) 0xC8610014#32 (fun t => [t.uval 3]) = [0x4000000000000000] := by decide +kernel

/-- R316: vector of spec/95 or spec/96, row of rule R316, lf.mul.s r3,r1,r2. -/
theorem test_lf_mul_s :
    run ((at64.setReg 1#5 0x40000000#64).setReg 2#5 0x40400000#64) 0xC8611002#32
      (fun t => [t.uval 3, t.fpcsr.toNat]) = [0x40C00000, 0] := by decide +kernel

/-- R315: vector of spec/95 or spec/96, row of rule R315, lf.mul.d r3,r1,r2. -/
theorem test_lf_mul_d :
    run ((at64.setReg 1#5 0x4000000000000000#64).setReg 2#5 0x4008000000000000#64) 0xC8611012#32
      (fun t => [t.uval 3, t.fpcsr.toNat]) = [0x4018000000000000, 0] := by decide +kernel

/-- R318: vector of spec/95 or spec/96, row of rule R318, lf.rem.s r3,r1,r2. -/
theorem test_lf_rem_s :
    run ((at64.setReg 1#5 0x40A00000#64).setReg 2#5 0x40400000#64) 0xC8611006#32
      (fun t => [t.uval 3, t.fpcsr.toNat]) = [0xBF800000, 0] := by decide +kernel

/-- R317: vector of spec/95 or spec/96, row of rule R317, lf.rem.d r3,r1,r2. -/
theorem test_lf_rem_d :
    run ((at64.setReg 1#5 0x4014000000000000#64).setReg 2#5 0x4008000000000000#64) 0xC8611016#32
      (fun t => [t.uval 3, t.fpcsr.toNat]) = [0xBFF0000000000000, 0] := by decide +kernel

/-- R331: vector of spec/95 or spec/96, row of rule R331, lf.sub.d r3,r1,r2. -/
theorem test_lf_sub_d :
    run ((at64.setReg 1#5 0x4008000000000000#64).setReg 2#5 0x3FF0000000000000#64) 0xC8611011#32
      (fun t => [t.uval 3, t.fpcsr.toNat]) = [0x4000000000000000, 0] := by decide +kernel

/-- R320: vector of spec/95 or spec/96, row of rule R320, lf.sfeq.s r1,r2. -/
theorem test_lf_sfeq_s :
    run ((at64.setReg 1#5 0x3F800000#64).setReg 2#5 0x3F800000#64) 0xC8011008#32
      (fun t => [t.flagF.toNat]) = [1] := by decide +kernel

/-- R321: vector of spec/95 or spec/96, row of rule R321, lf.sfge.d r1,r2. -/
theorem test_lf_sfge_d :
    run ((at64.setReg 1#5 0x3FF0000000000000#64).setReg 2#5 0x3FF0000000000000#64) 0xC801101B#32
      (fun t => [t.flagF.toNat]) = [1] := by decide +kernel

/-- R328: vector of spec/95 or spec/96, row of rule R328, lf.sflt.s r1,r2. -/
theorem test_lf_sflt_s :
    run ((at64.setReg 1#5 0x3F800000#64).setReg 2#5 0x40000000#64) 0xC801100C#32
      (fun t => [t.flagF.toNat]) = [1] := by decide +kernel

/-- R329: vector of spec/95 or spec/96, row of rule R329, lf.sfne.d r1,r2. -/
theorem test_lf_sfne_d :
    run ((at64.setReg 1#5 0x3FF0000000000000#64).setReg 2#5 0x4000000000000000#64) 0xC8011019#32
      (fun t => [t.flagF.toNat]) = [1] := by decide +kernel

/-- R357: vector of spec/95 or spec/96, row of rule R357, lv.adds.b r3,r1,r2. -/
theorem test_lv_adds_b :
    run ((at64.setReg 1#5 0x7F80FF0112345678#64).setReg 2#5 0x1800102F0F0F0F0#64) 0x28611032#32
      (fun t => [t.uval 3]) = [0x7F80000302244668] := by decide +kernel

/-- R362: vector of spec/95 or spec/96, row of rule R362, lv.addus.h r3,r1,r2. -/
theorem test_lv_addus_h :
    run ((at64.setReg 1#5 0x7F80FF0112345678#64).setReg 2#5 0x1800102F0F0F0F0#64) 0x28611037#32
      (fun t => [t.uval 3]) = [0x8100FFFFFFFFFFFF] := by decide +kernel

/-- R367: vector of spec/95 or spec/96, row of rule R367, lv.all_gt.b r3,r1,r2. -/
theorem test_lv_all_gt_b :
    run ((at64.setReg 1#5 0x102030405060708#64).setReg 2#5 0x102030405060709#64) 0x28611014#32
      (fun t => [t.uval 3]) = [0] := by decide +kernel

/-- R383: vector of spec/95 or spec/96, row of rule R383, lv.any_le.h r3,r1,r2. -/
theorem test_lv_any_le_h :
    run ((at64.setReg 1#5 0x102030405060708#64).setReg 2#5 0x102030405060709#64) 0x28611027#32
      (fun t => [t.uval 3]) = [0xFFFFFFFFFFFFFFFF] := by decide +kernel

/-- R388: vector of spec/95 or spec/96, row of rule R388, lv.avg.b r3,r1,r2. -/
theorem test_lv_avg_b :
    run ((at64.setReg 1#5 0xFF01800A00030201#64).setReg 2#5 0xFF01800B00040202#64) 0x28611039#32
      (fun t => [t.uval 3]) = [0xFF01800A00030201] := by decide +kernel

/-- R398: vector of spec/95 or spec/96, row of rule R398, lv.cmp_lt.b r3,r1,r2. -/
theorem test_lv_cmp_lt_b :
    run ((at64.setReg 1#5 0x7F80FF0100050005#64).setReg 2#5 0x807FFF0200050004#64) 0x28611048#32
      (fun t => [t.uval 3]) = [0xFF00FF00000000] := by decide +kernel

/-- R432: vector of spec/95 or spec/96, row of rule R432, lv.max.h r3,r1,r2. -/
theorem test_lv_max_h :
    run ((at64.setReg 1#5 0x7F80FF0112345678#64).setReg 2#5 0x1800102F0F0F0F0#64) 0x28611056#32
      (fun t => [t.uval 3]) = [0x7F80010212345678] := by decide +kernel

/-- R433: vector of spec/95 or spec/96, row of rule R433, lv.merge.b r3,r1,r2. -/
theorem test_lv_merge_b :
    run ((at64.setReg 1#5 0xA7A6A5A4A3A2A1A0#64).setReg 2#5 0xB7B6B5B4B3B2B1B0#64) 0x28611057#32
      (fun t => [t.uval 3]) = [0xA7B6A5B4A3B2A1B0] := by decide +kernel

/-- R438: vector of spec/95 or spec/96, row of rule R438, lv.muls.h r3,r1,r2. -/
theorem test_lv_muls_h :
    run ((at64.setReg 1#5 0x8000FFFF01000003#64).setReg 2#5 0x8000000201000005#64) 0x2861105C#32
      (fun t => [t.uval 3]) = [0x7FFFFFFE7FFF000F] := by decide +kernel

/-- R439: vector of spec/95 or spec/96, row of rule R439, lv.nand r3,r1,r2. -/
theorem test_lv_nand :
    run ((at64.setReg 1#5 0x7F80FF0112345678#64).setReg 2#5 0x1800102F0F0F0F0#64) 0x2861105D#32
      (fun t => [t.uval 3]) = [0xFE7FFEFFEFCFAF8F] := by decide +kernel

/-- R444: vector of spec/95 or spec/96, row of rule R444, lv.packs.b r3,r1,r2. -/
theorem test_lv_packs_b :
    run ((at64.setReg 1#5 0x7F80FF01000708F9#64).setReg 2#5 0x102030405060710#64) 0x28611062#32
      (fun t => [t.uval 3]) = [0x78F1077912345677] := by decide +kernel

/-- R447: vector of spec/95 or spec/96, row of rule R447, lv.packus.h r3,r1,r2. -/
theorem test_lv_packus_h :
    run ((at64.setReg 1#5 0x7FFF8000007F0080#64).setReg 2#5 0xFFFF00FF0100FF80#64) 0x28611065#32
      (fun t => [t.uval 3]) = [0xFFFF7F80FFFFFFFF] := by decide +kernel

/-- R442: vector of spec/95 or spec/96, row of rule R442, lv.pack.b r3,r1,r2. -/
theorem test_lv_pack_b :
    run ((at64.setReg 1#5 0x7F80FF01000708F9#64).setReg 2#5 0x102030405060710#64) 0x28611060#32
      (fun t => [t.uval 3]) = [0xF0F1078912345670] := by decide +kernel

/-- R448: vector of spec/95 or spec/96, row of rule R448, lv.perm.n r3,r1,r2. -/
theorem test_lv_perm_n :
    run ((at64.setReg 1#5 0xFEDCBA9876543210#64).setReg 2#5 0x123456789ABCDEF#64) 0x28611066#32
      (fun t => [t.uval 3]) = [0x123456789ABCDEF] := by decide +kernel

/-- R449: vector of spec/95 or spec/96, row of rule R449, lv.rl.b r3,r1,r2. -/
theorem test_lv_rl_b :
    run ((at64.setReg 1#5 0x81FF7F0180402001#64).setReg 2#5 0x107040300020901#64) 0x28611067#32
      (fun t => [t.uval 3]) = [0x3FFF70880014002] := by decide +kernel

/-- R451: vector of spec/95 or spec/96, row of rule R451, lv.sll r3,r1,r2. -/
theorem test_lv_sll :
    run ((at64.setReg 1#5 0x8000000000000181#64).setReg 2#5 0xFB#64) 0x2861106B#32
      (fun t => [t.uval 3]) = [0xC08] := by decide +kernel

/-- R454: vector of spec/95 or spec/96, row of rule R454, lv.sra.b r3,r1,r2. -/
theorem test_lv_sra_b :
    run ((at64.setReg 1#5 0x81FF7F0180402001#64).setReg 2#5 0x107040300020901#64) 0x2861106E#32
      (fun t => [t.uval 3]) = [0xC0FF070080101000] := by decide +kernel

/-- R458: vector of spec/95 or spec/96, row of rule R458, lv.srl.h r3,r1,r2. -/
theorem test_lv_srl_h :
    run ((at64.setReg 1#5 0x8001FFFF7FFF0001#64).setReg 2#5 0x1000F00140004#64) 0x2861106D#32
      (fun t => [t.uval 3]) = [0x4000000107FF0000] := by decide +kernel

/-- R465: vector of spec/95 or spec/96, row of rule R465, lv.subus.b r3,r1,r2. -/
theorem test_lv_subus_b :
    run ((at64.setReg 1#5 0x7F80FF0112345678#64).setReg 2#5 0x80010102F0F0F0F0#64) 0x28611077#32
      (fun t => [t.uval 3]) = [0x7FFE0000000000] := by decide +kernel

/-- R467: vector of spec/95 or spec/96, row of rule R467, lv.unpack.b r3,r1,r2. -/
theorem test_lv_unpack_b :
    run ((at64.setReg 1#5 0xDEADBEEF87F10F80#64).setReg 2#5 0x0#64) 0x28611079#32
      (fun t => [t.uval 3]) = [0xF807FF0100FFF800] := by decide +kernel

/-! ### WellFormed (R214) -/

theorem test_jalr_r9_ill_formed : (Instr.lJalr linkReg).wellFormed = false := by decide
theorem test_jalr_r8_well_formed : (Instr.lJalr 8).wellFormed = true := by decide
/-- The ill-formed instruction is decoded, and refused when it is executed. -/
theorem test_jalr_r9_refused : refusal at32 0x48004800#32 = some .jalrLinkRegister := by decide +kernel

/-! ### Refusals, exceptions and jumps, one step each -/

/-- R111: `l.add` with a reserved bit set. -/
theorem test_reserved_bit : refusal at32 0xE0611010#32 = some (.reservedBits "l.add") := by decide +kernel
/-- R112, R500, R507: an unassigned word. -/
theorem test_unassigned :
    run at32 0x08000000#32 (fun t => [t.pc.toNat, t.epcr.toNat, t.eear.toNat, t.sr.toNat]) = [0x700, 0x2000, 0x2000, 0x8001] := by
  decide +kernel
/-- R286, R507, R508: `l.sys` from user mode. -/
theorem test_l_sys :
    run (user at32) 0x20000000#32 (fun t => [t.pc.toNat, t.epcr.toNat, t.esr.toNat, t.sr.toNat]) = [0xC00, 0x2004, 0x8000, 0x8001] := by
  decide +kernel
/-- R287: `l.trap` with the exception prefix high and a vector base. -/
theorem test_l_trap_vector :
    run { under { defaultConfig with evbarp := true } with sr := 0xC001#32, evbar := 0x00042000#32 } 0x21000000#32
      (fun t => [t.pc.toNat, t.epcr.toNat]) = [0xF0042E00, 0x2000] := by decide +kernel
/-- R285: `l.rfe` back to user mode. -/
theorem test_l_rfe :
    run { at32 with epcr := 0x4000#64, esr := 0x8202#32, resv := some 0x4000 } 0x24000000#32
      (fun t => [t.pc.toNat, t.sr.toNat, t.resv.getD 1]) = [0x4000, 0x8202, 1] := by decide +kernel
/-- R288: `l.mtspr` in user mode. -/
theorem test_l_mtspr_user : run (user at32) 0xC0000811#32 (fun t => [t.pc.toNat, t.epcr.toNat]) = [0x700, 0x2000] := by decide +kernel
/-- R38, R280: `l.mfspr` of EPCR. -/
theorem test_l_mfspr_epcr : run { at32 with epcr := 0x1234#64 } 0xB4600020#32 (fun t => [t.uval 3]) = [0x1234] := by decide +kernel
/-- R36, R282: `l.mtspr` to SR keeps FO one and its reserved bits zero. -/
theorem test_l_mtspr_sr :
    run (at32.setReg 1 0x0FFE0001#64) 0xC0000811#32 (fun t => [t.sr.toNat]) = [0x00008001] := by decide +kernel
/-- R205: `l.jal` links to the instruction after the delay slot. -/
theorem test_l_jal :
    run at32 0x04000004#32 (fun t => [t.pc.toNat, (t.ds.getD 0).toNat, t.uval 9]) = [0x2004, 0x2010, 0x2008] := by decide +kernel
/-- R26, R48: without delay slots the jump is at once. -/
theorem test_l_jal_nd :
    run (under { defaultConfig with nd := true }) 0x04000004#32 (fun t => [t.pc.toNat, (t.ds.getD 0).toNat, t.uval 9]) =
      [0x2010, 0, 0x2004] := by decide +kernel
/-- R217: a jump in a delay slot. -/
theorem test_jump_in_slot : refusal { at32 with ds := some 0x3000#64 } 0x00000004#32 = some .jumpInDelaySlot := by decide +kernel
/-- R503: the range exception after the result and CY and OV are written, and recorded in AESR. -/
theorem test_l_add_traps :
    run (({ at32 with sr := 0x9001#32, aecr := 0x02#32 }.setReg 1 0x7FFFFFFF#64).setReg 2 1#64) 0xE0611000#32
      (fun t => [t.pc.toNat, t.epcr.toNat, t.uval 3, t.aesr.toNat, t.flagOV.toNat]) = [0xB00, 0x2000, 0x80000000, 2, 1] := by
  decide +kernel
/-- R302, R508: the floating-point exception after the quotient by zero. -/
theorem test_lf_div_traps :
    run ({ at64 with fpcsr := 1#32 }.setReg 1 0x3F800000#64) 0xC8611003#32
      (fun t => [t.pc.toNat, t.epcr.toNat, t.uval 3, t.fpcsr.toNat]) = [0xD00, 0x2004, 0x7F800000, 0xC01] := by decide +kernel
/-- R78, R509: a misaligned load. -/
theorem test_l_lwz_misaligned :
    run (at32.setReg 1 0x4002#64) 0x84610000#32 (fun t => [t.pc.toNat, t.eear.toNat, t.epcr.toNat]) = [0x600, 0x4002, 0x2000] := by
  decide +kernel
/-- R62, R506: the machine starts at the reset vector. -/
theorem test_reset_pc : State.reset.pc = 0x100#64 := by decide
/-- R27: a word placed where the machine fetches is the next instruction: `l.movhi r3,0x1234`. -/
theorem test_withFetchWord :
    (after (step (State.reset.withFetchWord 32 0x18601234))).uval 3 = 0x12340000 ∧
      (after (step (State.reset.withFetchWord 32 0x18601234))).pc = 0x104#64 := by decide +kernel
/-- R515: an external interrupt that is pending and enabled comes before the instruction. -/
theorem test_external_interrupt :
    (after (step { at32 with sr := 0x8005#32, inputs := [⟨false, true, true, false, []⟩] })).pc = 0x800#64 := by decide +kernel

/-! ### Witnesses: encoding and the step -/

theorem witness_EncodeDecodeAgree : decodeWord 0xE0611000#32 = .instr (.lAdd 3 1 2) := by decide +kernel

theorem witness_OpcodeRowsDisjoint :
    ∃ r ∈ opcodeTable, r.mnemonic = "l.add" ∧ 0xE0611000#32 &&& r.mask = r.pattern := by decide +kernel

theorem witness_ReservedAndUnassignedWords :
    (∃ r ∈ opcodeTable, 0xE0611010#32 &&& r.mask = r.pattern ∧ 0xE0611010#32 &&& r.reserved ≠ 0#32) ∧
    (∀ r ∈ opcodeTable, 0x08000000#32 &&& r.mask ≠ r.pattern) ∧
    (0xC80101D0#32 &&& 0xFC0000F0#32 = 0xC80000D0#32 ∧ 0xC80101D0#32 &&& at32.cfg.fcustReserved ≠ 0#32) ∧
    (0x280001C0#32 &&& 0xFC0000F0#32 = 0x280000C0#32 ∧ 0x280001C0#32 &&& at32.cfg.vcustReserved ≠ 0#32) := by decide +kernel

theorem witness_StepRunsDecodedInstruction :
    let s := withWords [(0x2000, 0xE0611000#32)] at32
    boundary (nextInput s) (takeInput s) = .nothing ∧ fetch (takeInput s) = .bytes [0xE0#8, 0x61#8, 0x10#8, 0x00#8] ∧
      decode [0xE0#8, 0x61#8, 0x10#8, 0x00#8] = .instr (.lAdd 3 1 2) := by decide +kernel

/-- A machine with an MMU: one page at 0x2000, that user mode may not use, mapped to 0x8000, and to 0xC000
for stores; no access of 8 bytes is answered. -/
def mmuConfig : Config :=
  { defaultConfig with
    hasMmu := true
    loadPages := [⟨0x2000, 0x2000, 0x8000, true, false⟩]
    storePages := [⟨0x2000, 0x2000, 0xC000, true, false⟩]
    fetchPages := [⟨0x2000, 0x2000, 0x8000, true, false⟩]
    regions := [⟨0, 0x10000, [1, 2, 4], [1, 2, 4], [4]⟩] }

/-- Every check of a fetch: misaligned; a miss; a page user mode may not fetch from; no answer, at the first
address past the memory; a byte, the last of the four, stored to since the last synchronisation; and a word
delivered, the last one of the memory. -/
theorem witness_FetchChecksInOrder :
    (({ at32 with pc := 0x2002#64 }).pc.toNat % 4 ≠ 0) ∧
    (let s := { under mmuConfig with sr := 0x8041#32, pc := 0x4000#64 }
     s.pc.toNat % 4 = 0 ∧ Machine.translate s .fetch s.pc = .miss) ∧
    (let s := { under mmuConfig with sr := 0x8040#32 }
     s.pc.toNat % 4 = 0 ∧ Machine.translate s .fetch s.pc = .denied) ∧
    (let s := { under mmuConfig with pc := 0x10000#64 }
     s.pc.toNat % 4 = 0 ∧ Machine.translate s .fetch s.pc = .to 0x10000 ∧ busOk s.cfg 0x10000 4 .fetch = false) ∧
    (let s := { under { mmuConfig with fetchStale := true } with sr := 0x8041#32, stale := [0x8003] }
     Machine.translate s .fetch s.pc = .to 0x8000 ∧ busOk s.cfg 0x8000 4 .fetch = true ∧ s.cfg.fetchStale = true ∧ 0x8000 + 3 ∈ s.stale) ∧
    (let s := { under mmuConfig with pc := 0xFFFC#64 }
     Machine.translate s .fetch s.pc = .to 0xFFFC ∧ busOk s.cfg 0xFFFC 4 .fetch = true ∧ s.cfg.fetchStale = false ∧ s.srBit srIME = false) ∧
    at32.cfg.hasMmu = false := by decide +kernel

/-- A fetch that raises each of the four exceptions, and a stale one. -/
theorem witness_FetchChecksInOrder_raised :
    fetch { at32 with pc := 0x2002#64 } = .exc (.alignment 0x2002#64) ∧
    fetch { under mmuConfig with sr := 0x8041#32, pc := 0x4000#64 } = .exc (.itlbMiss 0x4000#64) ∧
    fetch { under mmuConfig with sr := 0x8040#32 } = .exc (.insnPageFault 0x2000#64) ∧
    fetch { under mmuConfig with pc := 0x10000#64 } = .exc (.busError 0x10000#64) ∧
    fetch { under { mmuConfig with fetchStale := true } with stale := [0x2003] } = .stale := by
  refine ⟨?_, ?_, ?_, ?_, ?_⟩ <;> decide +kernel

theorem witness_InterruptsAtBoundary_quiet : Quiet at32 ∧ Quiet { at32 with inputs := [Input.none] } :=
  ⟨by unfold Quiet; decide, by unfold Quiet; decide⟩

theorem witness_InterruptsAtBoundary :
    (let s := { at32 with sr := 0x8005#32, inputs := [⟨false, true, true, false, []⟩] }
     s.inputs = ⟨false, true, true, false, []⟩ :: [] ∧ s.srBit srIEE = true) ∧
    (let s := { at32 with sr := 0x8003#32, inputs := [⟨false, true, true, false, []⟩] }
     s.inputs = ⟨false, true, true, false, []⟩ :: [] ∧ s.srBit srTEE = true ∧ s.srBit srIEE = false) ∧
    (let s := { at32 with sr := 0x8001#32, inputs := [⟨false, true, true, false, []⟩] }
     s.inputs = ⟨false, true, true, false, []⟩ :: [] ∧ s.srBit srTEE = false ∧ s.srBit srIEE = false) := by decide +kernel

/-- A write to the last byte of the reserved word, and one just past it. -/
theorem witness_OutsideWritesLand :
    (let i : Input := ⟨false, false, false, false, [(0x4003, 1#8), (0x4003, 2#8)]⟩
     let s := { at32 with resv := some 0x4000, inputs := [i] }
     s.inputs = i :: [] ∧ Memory.wf s.mem = true ∧ i.writes = [(0x4003, 1#8)] ++ (0x4003, 2#8) :: [] ∧ s.resv = some 0x4000 ∧
       (∃ c ∈ i.writes, 0x4000 ≤ c.1 ∧ c.1 < 0x4000 + 4) ∧ ∀ c ∈ i.writes, c.1 ≠ 0x4004) ∧
    (let i : Input := ⟨false, false, false, false, [(0x4004, 1#8)]⟩
     let s := { at32 with resv := some 0x4000, inputs := [i] }
     s.inputs = i :: [] ∧ Memory.wf s.mem = true ∧ s.resv = some 0x4000 ∧ i.loseResv = false ∧
       ∀ c ∈ i.writes, c.1 < 0x4000 ∨ 0x4000 + 4 ≤ c.1) ∧ at32.resv = none := by decide +kernel

theorem witness_ResetInputReassigns :
    ({ at32 with inputs := [⟨true, false, false, false, []⟩] }).inputs = ⟨true, false, false, false, []⟩ :: [] := by decide

/-! ### Witnesses: invariants -/

/-- A state of the invariant that no reset gives: user mode, in a delay slot, with a reservation and a byte in memory. -/
def running : State :=
  { user at32 with ds := some 0x3000#64, resv := some 0x4000, mem := [(0x2000, 0x15#8), (0x4000, 1#8)], fpcsr := 0xFFF#32 }

theorem running_inv : Inv running := by
  refine ⟨by decide, by decide, by decide, by decide, by decide, by decide, by decide, by decide, ?_, by unfold Narrow; decide,
    by unfold Narrow; decide, ?_, by unfold Narrow; decide, by unfold Narrow; decide, by decide, ?_⟩
  · intro r; unfold Narrow; revert r; decide +kernel
  · intro x h
    have : x = 0x3000#64 := (Option.some.inj h).symm
    subst this; unfold Narrow; decide
  · intro _ r h
    have : r = 0x4000 := (Option.some.inj h).symm
    subst this; decide

theorem witness_StepKeepsInvariant :
    Inv running ∧ ∃ t, step running = .next t ∧ t.pc = 0x3000#64 :=
  ⟨running_inv, after (step running), by rfl, by decide +kernel⟩

/-- A completion in user mode, and a system call. -/
theorem witness_UserModeIsConfined :
    (user at32).supervisor = false ∧
    (∃ t, exec (.lAdd 3 1 2) (user at32) = .next t ∧ t.supervisor = false) ∧
    (∃ t, exec (.lSys 0) (user at32) = .next t ∧ t.supervisor = true) :=
  ⟨by decide, ⟨_, rfl, by decide +kernel⟩, ⟨_, rfl, by decide +kernel⟩⟩

/-! ### Witnesses: integer arithmetic -/

/-- A state in which every event raises the range exception. -/
def trapping : State := { at32 with sr := 0x9001#32, aecr := 0x7F#32 }

/-- The events, with nothing raised and with something raised: the carry and the overflow at once. -/
theorem witness_AdditionResult :
    (let s := (at32.setReg 1 0x80000000#64).setReg 2 0x80000000#64
     2 ^ s.width ≤ s.uval 1 + wrap s.width (s.sval 2) + 0 ∧ OutOfRange s.width (s.sval 1 + s.sval 2 + 0) ∧ ¬ RangeEnabled s 0) ∧
    (let s := (trapping.setReg 1 0x80000000#64).setReg 2 0x80000000#64
     RangeTaken s [(0, 2 ^ s.width ≤ s.uval 1 + wrap s.width (s.sval 2) + 0), (1, OutOfRange s.width (s.sval 1 + s.sval 2 + 0))]) := by
  refine ⟨by unfold OutOfRange RangeEnabled; decide +kernel, ?_⟩
  exact ⟨_, List.mem_cons_self, by decide +kernel, by unfold RangeEnabled; decide +kernel⟩

theorem witness_SubtractionResult :
    let s := trapping.setReg 2 1#64
    s.uval 1 < s.uval 2 ∧ RangeTaken s [(0, s.uval 1 < s.uval 2), (1, OutOfRange s.width (s.sval 1 - s.sval 2))] :=
  ⟨by decide +kernel, _, List.mem_cons_self, by decide +kernel, by unfold RangeEnabled; decide +kernel⟩

theorem witness_MultiplicationResult :
    let s := (trapping.setReg 1 0x80000000#64).setReg 2 2#64
    s.cfg.hasMul = true ∧ RangeTaken s [(3, OutOfRange s.width (s.sval 1 * s.sval 2))] ∧
      RangeTaken s [(2, 2 ^ s.width ≤ s.uval 1 * s.uval 2)] := by
  refine ⟨by decide, ⟨_, List.mem_cons_self, ?_, ?_⟩, _, List.mem_cons_self, by decide +kernel, ?_⟩
  · unfold OutOfRange; decide +kernel
  · unfold RangeEnabled; decide +kernel
  · unfold RangeEnabled; decide +kernel

/-- The most negative number by minus one, and minus seven by two. -/
theorem witness_DivisionResult :
    (let s := (at32.setReg 1 0x80000000#64).setReg 2 0xFFFFFFFF#64
     s.cfg.hasDiv = true ∧ s.uval 2 ≠ 0 ∧ OutOfRange s.width (Int.tdiv (s.sval 1) (s.sval 2))) ∧
    (let s := (at32.setReg 1 0xFFFFFFF9#64).setReg 2 2#64
     s.cfg.hasDiv = true ∧ s.uval 2 ≠ 0 ∧ ¬ OutOfRange s.width (Int.tdiv (s.sval 1) (s.sval 2))) := by
  unfold OutOfRange; decide +kernel

theorem witness_DivisionByZero :
    (at32.cfg.hasDiv = true ∧ at32.uval 2 = 0 ∧ ¬ RangeTaken at32 [(4, True)]) ∧
    (trapping.cfg.hasDiv = true ∧ trapping.uval 2 = 0 ∧ RangeTaken trapping [(4, True)]) := by
  refine ⟨⟨by decide, by decide, ?_⟩, by decide, by decide, _, List.mem_cons_self, trivial, ?_⟩
  · rintro ⟨e, _, _, h, _⟩
    exact absurd h (by decide)
  · unfold RangeEnabled; decide +kernel

theorem witness_LogicAndMoveResult : at32.cfg.hasCmov = true ∧ (at32.setF true).flagF = true ∧ at32.flagF = false := by decide
theorem witness_ShiftRotateResult : at32.cfg.hasRor = true := by decide
theorem witness_ExtensionResult : at32.cfg.hasExt = true := by decide

theorem witness_FindOneResult :
    let s := at32.setReg 1 0x80000000#64
    s.cfg.hasFf1 = true ∧ at32.uval 1 = 0 ∧ (s.uval 1).testBit 31 = true ∧ (∀ j < 31, (s.uval 1).testBit j = false) ∧
      ∀ j, 31 < j → (s.uval 1).testBit j = false := by
  refine ⟨by decide, by decide, by decide +kernel, by decide +kernel, ?_⟩
  intro j hj
  have h : (at32.setReg 1 0x80000000#64).uval 1 = 2 ^ 31 := by decide +kernel
  rw [h, Nat.testBit_two_pow]
  simp; omega

/-! ### Witnesses: jumps -/

theorem witness_BranchTaken :
    at32.ds = none ∧ (at32.setF true).ds = none ∧ (at32.setF true).flagF = true ∧ (!at32.flagF) = true := by decide
theorem witness_LinkAndRegisterJumps : at32.ds = none ∧ (8 : RegNum) ≠ linkReg := by decide
theorem witness_RefusedJumps :
    ({ at32 with ds := some 0x3000#64 }).ds ≠ none ∧ ({ at32 with ds := some 0x3000#64 }).supervisor = true ∧
      (8 : RegNum) ≠ linkReg := by decide

/-- A jump with its delay slot, and a next state for each of the others. -/
theorem witness_DelaySlotThenTarget :
    (let s := at32.setReg 8 0x3000#64
     ∃ t u, s.cfg.nd = false ∧ s.ds = none ∧ exec (.lJr 8) s = .next t ∧ Completes (.lNop 0) t [] (fun _ => True) ∧
       exec (.lNop 0) t = .next u) ∧
    (∃ t, exec (.lJalr 8) at32 = .next t) ∧ (∃ t, exec (.lJ 1) at32 = .next t) ∧ (∃ t, exec (.lJal 1) at32 = .next t) ∧
    ((at32.setF true).flagF = true ∧ ∃ t, exec (.lBf 1) (at32.setF true) = .next t) ∧
    ((!at32.flagF) = true ∧ ∃ t, exec (.lBnf 1) at32 = .next t) :=
  ⟨⟨_, _, by decide, by decide, rfl,
      completes_finish (u := after (exec (.lJr 8) (at32.setReg 8 0x3000#64))) rfl (Frame.refl _ _) rfl rfl trivial, rfl⟩,
    ⟨_, rfl⟩, ⟨_, rfl⟩, ⟨_, rfl⟩, ⟨by decide, _, rfl⟩, by decide, _, rfl⟩

/-! ### Witnesses: loads and stores -/

/-- Each outcome of the checks, at the boundaries: the last word of the memory, and the first address past it. -/
theorem witness_DataAccessChecks :
    (0x4002#64).toNat % 4 ≠ 0 ∧ at32.cfg.hasMmu = false ∧
    (let s := under mmuConfig
     Machine.translate s .load 0xFFFC#64 = .to 0xFFFC ∧
       (∀ j < 4, ∃ r ∈ s.cfg.regions, r.base ≤ 0xFFFC + j ∧ 0xFFFC + j < r.base + r.size ∧ regionAdmits r .load 4 = true) ∧
     Machine.translate s .store 0x10000#64 = .to 0x10000 ∧
       ¬ (∀ j < 4, ∃ r ∈ s.cfg.regions, r.base ≤ 0x10000 + j ∧ 0x10000 + j < r.base + r.size ∧ regionAdmits r .store 4 = true) ∧
     Machine.translate s .load 0x4000#64 = .to 0x4000 ∧ ¬ (∃ r ∈ s.cfg.regions, regionAdmits r .load 8 = true)) ∧
    (let s := { under mmuConfig with sr := 0x8021#32 }
     Machine.translate s .load 0x4000#64 = .miss ∧ Machine.translate s .load 0x3FFC#64 = .to 0x9FFC ∧ Machine.translate s .store 0x3FFC#64 = .to 0xDFFC) ∧
    (let s := { under mmuConfig with sr := 0x8020#32 }
     Machine.translate s .load 0x3FFC#64 = .denied) := by decide +kernel

/-- A load of each width, the half word and the word with their sign bits set. -/
theorem witness_LoadResult :
    let s := (withWords [(0x4000, 0x80FF7F01#32), (0x4004, 0xFFFE8000#32)] at64).setReg 1 0x4000#64
    access s .load 1 (effectiveAddr s 1 1) = .ok 0x4001 ∧ access s .load 2 (effectiveAddr s 1 4) = .ok 0x4004 ∧
      access s .load 4 (effectiveAddr s 1 0) = .ok 0x4000 ∧ s.cfg.xlen = .x64 ∧
      access s .load 8 (effectiveAddr s 1 0) = .ok 0x4000 := by
  refine ⟨rfl, rfl, rfl, rfl, rfl⟩

/-- A machine whose fetch may lag behind its stores. -/
def staleConfig : Config := { fullConfig with fetchStale := true }

/-- A store over the last byte of a reserved word, and one just past it; one under `FETCH_STALE`. -/
theorem witness_StoreResult :
    let s := { at64.setReg 1 0x4000#64 with resv := some 0x4000 }
    Memory.wf s.mem = true ∧ s.cfg.fetchStale = false ∧ s.resv = some 0x4000 ∧ access s .store 1 (effectiveAddr s 1 3) = .ok 0x4003 ∧
      0x4003 < 0x4000 + 4 ∧ access s .store 2 (effectiveAddr s 1 4) = .ok 0x4004 ∧ 0x4000 + 4 ≤ 0x4004 ∧ s.cfg.xlen = .x64 ∧
      access s .store 8 (effectiveAddr s 1 0) = .ok 0x4000 ∧ at64.resv = none ∧ (under staleConfig).cfg.fetchStale = true ∧
      access (under staleConfig) .store 8 (effectiveAddr (under staleConfig) 1 8) = .ok 8 := by
  refine ⟨rfl, rfl, rfl, rfl, by decide, rfl, by decide, rfl, rfl, rfl, rfl, rfl⟩

theorem witness_LoadAtomicResult :
    let s := at32.setReg 1 0x4000#64
    s.cfg.hasLwa = true ∧ access s .load 4 (effectiveAddr s 1 0) = .ok 0x4000 := ⟨rfl, rfl⟩

theorem witness_StoreAtomicResult :
    let s := { at32.setReg 1 0x4000#64 with resv := some 0x4000 }
    s.cfg.hasLwa = true ∧ Memory.wf s.mem = true ∧ access s .store 4 (effectiveAddr s 1 0) = .ok 0x4000 ∧ s.resv = some 0x4000 ∧
      access s .store 4 (effectiveAddr s 1 4) = .ok 0x4004 ∧ s.resv ≠ some 0x4004 ∧
      (let u := { under staleConfig with resv := some 8 }
       u.cfg.hasLwa = true ∧ u.cfg.fetchStale = true ∧ access u .store 4 (effectiveAddr u 1 8) = .ok 8 ∧ u.resv = some 8) := by
  refine ⟨rfl, rfl, rfl, rfl, rfl, by decide, rfl, rfl, rfl, rfl⟩

/-- R90: under `FETCH_STALE` the bytes of a store, and no others, become stale; else none do. -/
theorem test_stale_bytes :
    (run ({ (under staleConfig).setReg 1 0x4000#64 with stale := [0x3000] }) 0xDC011004#32
        (fun t => t.stale)) = [0x4004, 0x4005, 0x3000] ∧
      run (at64.setReg 1 0x4000#64) 0xDC011004#32 (fun t => t.stale) = [] := by decide +kernel

/-- Each exception a load or store takes. -/
theorem witness_LoadStoreTraps :
    (let s := at64.setReg 1 0x4001#64
     s.cfg.hasLwa = true ∧ (s.cfg.xlen == .x64) = true ∧
       access s .load 8 (effectiveAddr s 1 0) = .error (.alignment (effectiveAddr s 1 0))) ∧
    (let s := (under mmuConfig).setReg 1 0x10000#64
     access s .store 4 (effectiveAddr s 1 0) = .error (.busError (effectiveAddr s 1 0))) ∧
    (let s := { (under mmuConfig).setReg 1 0x4000#64 with sr := 0x8021#32 }
     access s .load 4 (effectiveAddr s 1 0) = .error (.dtlbMiss (effectiveAddr s 1 0))) ∧
    (let s := { (under mmuConfig).setReg 1 0x3FFC#64 with sr := 0x8020#32 }
     access s .store 4 (effectiveAddr s 1 0) = .error (.dataPageFault (effectiveAddr s 1 0))) := by
  refine ⟨⟨rfl, rfl, rfl⟩, rfl, rfl, rfl⟩

/-- A word, and a double word at `XLEN = 64`. -/
theorem witness_StoreThenLoad :
    (let s := (at32.setReg 1 0x4000#64).setReg 2 0x12345678#64
     ∃ t u, Memory.wf s.mem = true ∧ access s .store 4 (effectiveAddr s 1 0) = .ok 0x4000 ∧
       access s .load 4 (effectiveAddr s 1 0) = .ok 0x4000 ∧ exec (.lSw 1 2 0) s = .next t ∧ exec (.lLwz 3 1 0) t = .next u) ∧
    (let s := (at64.setReg 1 0x4000#64).setReg 2 0x123456789ABCDEF0#64
     ∃ t u, s.cfg.xlen = .x64 ∧ Memory.wf s.mem = true ∧ access s .store 8 (effectiveAddr s 1 0) = .ok 0x4000 ∧
       access s .load 8 (effectiveAddr s 1 0) = .ok 0x4000 ∧ exec (.lSd 1 2 0) s = .next t ∧ exec (.lLd 3 1 0) t = .next u) :=
  ⟨⟨_, _, rfl, rfl, rfl, rfl, rfl⟩, ⟨_, _, rfl, rfl, rfl, rfl, rfl, rfl⟩⟩

/-! ### Witnesses: multiply-accumulate -/

/-- The product at `XLEN = 32`, and one of 65 bits at `XLEN = 64`, taken modulo `2 ^ 64`; with and without the exception. -/
theorem witness_SignedAccumulateResult :
    (let s := (at32.setReg 1 0x80000000#64).setReg 2 0x80000000#64
     s.cfg.hasMac = true ∧ (s.sval 1 * s.sval 2 - 2 ^ 62) % 2 ^ 64 = 0 ∧ ¬ OutOfRange 64 (s.accS + 2 ^ 62)) ∧
    (let s := (at64.setReg 1 0x8000000000000000#64).setReg 2 2#64
     s.cfg.hasMac = true ∧ (s.sval 1 * s.sval 2 - 0) % 2 ^ 64 = 0) ∧
    (let s := { (trapping.setReg 1 1#64).setReg 2 1#64 with machi := 0x7FFFFFFF#32, maclo := 0xFFFFFFFF#32 }
     s.cfg.hasMac = true ∧ (s.sval 1 * s.sval 2 - 1) % 2 ^ 64 = 0 ∧ OutOfRange 64 (s.accS + 1) ∧ RangeEnabled s 6) := by
  unfold OutOfRange RangeEnabled; decide +kernel

theorem witness_UnsignedAccumulateResult :
    let s := { (trapping.setReg 1 1#64).setReg 2 1#64 with machi := 0xFFFFFFFF#32, maclo := 0xFFFFFFFF#32 }
    s.cfg.hasMac = true ∧ RangeTaken s [(5, 2 ^ 64 ≤ s.accU + s.uval 1 * s.uval 2 % 2 ^ 64)] ∧ ¬ RangeTaken at32 [(5, True)] := by
  refine ⟨by decide, ⟨_, List.mem_cons_self, by decide +kernel, ?_⟩, ?_⟩
  · unfold RangeEnabled; decide +kernel
  · rintro ⟨e, _, _, h, _⟩
    exact absurd h (by decide)

theorem witness_DoubleMultiplyResult :
    at32.cfg.hasMac = true ∧ at32.cfg.xlen = .x32 ∧ at64.cfg.hasMac = true ∧ at64.cfg.xlen = .x64 := by decide

/-! ### Witnesses: system -/

/-- A configuration with every register, one without the optional ones, and one that implements ESR alone. -/
def sprConfig : Config :=
  { fullConfig with
    evbarp := true
    isrp := true
    sprSet := some ((List.range 0x41).map id ++ (List.range 0x20).map (0x400 + ·) ++ [0x2801, 0x2802]) }
def bareConfig : Config := { defaultConfig with aecsrp := false, avrp := false, uvrp := false, hasMac := false }
def oneSprConfig : Config := { fullConfig with evbarp := true, isrp := true, sprSet := some [0x40] }

/-- Every address of the statement is formed from the immediate; the last two are of no register. -/
theorem witness_MfsprResult :
    (∀ a ∈ [0, 1, 2, 9, 0xA, 0xB, 0xC, 0xD, 0x10, 0x11, 0x12, 0x14, 0x15, 0x1C, 0x20, 0x30, 0x40, 0x400, 0x41F, 0x2801, 0x2802, 0x420, 0xFFFF],
      (under sprConfig).supervisor = true ∧ a = ((under sprConfig).uval 0 ||| (BitVec.ofNat 16 a).toNat) % 2 ^ 16) ∧
    (∀ a ∈ [0, 1, 2, 9, 0xA, 0xB, 0xC, 0xD, 0x11, 0x14, 0x15, 0x1C, 0x20, 0x30, 0x40, 0x2801, 0x2802],
      sprListed sprConfig a true = true ∧ sprListed defaultConfig a true = true) ∧
    (∀ a ∈ [0x10, 0x12, 0x400, 0x41F], sprListed sprConfig a false = true ∧ sprListed defaultConfig a false = false) ∧
    (∀ a ∈ [0, 1, 2, 9, 0x14, 0x15, 0x1C, 0x2801], sprListed oneSprConfig a true = false) ∧
    (under sprConfig).cfg.isrp = true ∧ (under sprConfig).cfg.evbarp = true ∧ (under bareConfig).cfg.aecsrp = false ∧
    (under bareConfig).cfg.hasMac = false ∧ (under bareConfig).cfg.isrp = false := by
  decide +kernel

theorem witness_MtsprResult :
    (∀ a ∈ [0xB, 0xC, 0xD, 0x10, 0x14, 0x20, 0x30, 0x40, 0x400, 0x41F, 0x2801, 0x2802, 0, 0x1C, 0x420, 0xFFFF],
      (under sprConfig).supervisor = true ∧ a = ((under sprConfig).uval 0 ||| (BitVec.ofNat 16 a).toNat) % 2 ^ 16) ∧
    (∀ a ∈ [0xB, 0xC, 0xD, 0x14, 0x20, 0x30, 0x40, 0x2801, 0x2802], sprListed sprConfig a true = true) ∧
    (∀ a ∈ [0x10, 0x400, 0x41F], sprListed sprConfig a false = true ∧ sprListed defaultConfig a false = false) ∧
    (∀ a ∈ [0xB, 0x14, 0x20, 0x2802], sprListed oneSprConfig a true = false) ∧
    (under bareConfig).cfg.aecsrp = false ∧ hasFpu (under sprConfig).cfg = true ∧ hasFpu (under bareConfig).cfg = false := by decide +kernel

/-- Refused: LEE offered. SR not implemented. Written: every bit the machine takes, with the reserved ones and `FO = 0` offered. -/
theorem witness_MtsprToSr :
    (let s := at32.setReg 1 0x80#64
     s.supervisor = true ∧ (s.uval 0 ||| (0x11#16).toNat) % 2 ^ 16 = 0x11 ∧ (s.uval 1).testBit srLEE = true ∧
       sprListed s.cfg 0x11 true = true) ∧
    ((under oneSprConfig).supervisor = true ∧ ((under oneSprConfig).uval 0 ||| (0x11#16).toNat) % 2 ^ 16 = 0x11 ∧
      sprListed (under oneSprConfig).cfg 0x11 true = false) ∧
    (let s := at32.setReg 1 0xFFFF7F07#64
     s.supervisor = true ∧ (s.uval 0 ||| (0x11#16).toNat) % 2 ^ 16 = 0x11 ∧
       ¬ (∃ j ∈ [srLEE, srDCE, srICE] ++ (if s.cfg.hasMmu then [] else [srDME, srIME]), (s.uval 1).testBit j = true)) := by
  decide +kernel

theorem witness_ReturnFromException :
    (let s := { at32 with esr := 0x8040#32 }
     s.supervisor = true ∧ s.ds = none ∧ srIME ∈ [srLEE, srDCE, srICE] ++ (if s.cfg.hasMmu then [] else [srDME, srIME]) ∧
       s.esr.getLsbD srIME = true) ∧
    (let s := { under mmuConfig with esr := 0x8062#32 }
     s.supervisor = true ∧ s.ds = none ∧
       ¬ (∃ j ∈ [srLEE, srDCE, srICE] ++ (if s.cfg.hasMmu then [] else [srDME, srIME]), s.esr.getLsbD j = true)) := by decide +kernel

/-- Both readings of R517. -/
theorem witness_SystemCallAndTrap :
    at32.ds = none ∧ at32.cfg.excReading = .taken ∧ (under { defaultConfig with excReading := .fault }).ds = none ∧
      (under { defaultConfig with excReading := .fault }).cfg.excReading = .fault := by decide

theorem witness_UserModeSprAccess :
    (user at32).supervisor = false ∧ (user at32).cfg.userSprPolicy = .illegal ∧
    (user (under { defaultConfig with userSprPolicy := .refuse })).supervisor = false ∧
    (user (under { defaultConfig with userSprPolicy := .ignore })).supervisor = false := by decide

/-- Custom words of five effects, and bits that are reserved. -/
def customConfig : Config :=
  { fullConfig with
    customSem := [⟨0xFFFFFFFF#32, 0x70000001#32, .nop⟩, ⟨0xFC000000#32, 0x70000000#32, .illegal⟩,
      ⟨0xFC0000F0#32, 0xC80000E0#32, .compute⟩, ⟨0xFC0000F0#32, 0x280000C0#32, .refuse⟩,
      ⟨0xFC000000#32, 0x74000000#32, .function 3⟩]
    fcustReserved := 0#32 }

/-- Each clause: no case matches, the first case, a case behind another, a unit that is absent, a reserved bit set. -/
theorem witness_CustomInstructions :
    at32.cfg.customSem = [] ∧ encode (.lfCust1S 1 2 0) &&& at32.cfg.fcustReserved = 0#32 ∧ at32.cfg.hasFpx32 = false ∧
    customConfig.customSem = [] ++ ⟨0xFFFFFFFF#32, 0x70000001#32, .nop⟩ :: customConfig.customSem.tail ∧
    encode (.lCust1 1) &&& 0xFFFFFFFF#32 = 0x70000001#32 ∧
    customConfig.customSem = [⟨0xFFFFFFFF#32, 0x70000001#32, .nop⟩] ++ ⟨0xFC000000#32, 0x70000000#32, .illegal⟩ :: customConfig.customSem.tail.tail ∧
    encode (.lCust1 2) &&& 0xFFFFFFFF#32 ≠ 0x70000001#32 ∧ encode (.lCust1 2) &&& 0xFC000000#32 = 0x70000000#32 ∧
    encode (.lfCust1D 1 2 0x180) &&& 0xFC0000F0#32 = 0xC80000E0#32 ∧
    encode (.lfCust1D 1 2 0x180) &&& customConfig.fcustReserved = 0#32 ∧ encode (.lvCust1 0 0) &&& 0xFC0000F0#32 = 0x280000C0#32 ∧
    encode (.lvCust1 0 0) &&& customConfig.vcustReserved = 0#32 ∧ encode (.lvCust1 0 1) &&& customConfig.vcustReserved ≠ 0#32 ∧
    customConfig.customSem = customConfig.customSem.take 4 ++ ⟨0xFC000000#32, 0x74000000#32, .function 3⟩ :: [] ∧
    (∀ q ∈ customConfig.customSem.take 4, encode (.lCust2 5) &&& q.mask ≠ q.pattern) ∧
    encode (.lCust2 5) &&& 0xFC000000#32 = 0x74000000#32 ∧ (3 : RegNum) ≠ 4 ∧ Memory.wf at32.mem = true ∧
    access at32 .store 2 (at32.trunc 0x4000#64) = .ok 0x4000 := by
  decide +kernel

/-- R114: a custom word is refused by default, completes where the configuration says so, and computes. -/
theorem test_custom_refused : refusal at32 0x70000001#32 = some .customUndefined := by decide +kernel
theorem test_custom_nop : run (under customConfig) 0x70000001#32 (fun t => [t.pc.toNat]) = [0x2004] := by decide +kernel
theorem test_custom_compute : run (under customConfig) 0xC86110E0#32 (fun t => [t.pc.toNat, t.uval 1]) = [0x2004, 0] := by decide +kernel
/-- R114: a custom word with a function of its own: two registers and a store, then a jump with its slot. -/
theorem test_custom_function :
    (let t := after (customAct (.run [.reg 3 5#64, .reg 4 0x1FFFFFFFF#64, .store 0x4000#64 1 0xBEEF#64] (.jump 0x3000#64)) at32)
     [t.pc.toNat, t.uval 3, t.uval 4, (readByte t.mem 0x4000).toNat, (readByte t.mem 0x4001).toNat]) =
        [0x2004, 5, 0xFFFFFFFF, 0xBE, 0xEF] ∧
      (after (customAct (.run [] (.jump 0x3000#64)) at32)).ds = some 0x3000#64 ∧
      exec (.lCust2 5) (under customConfig) = customAct (Config.customFunction 3 (encode (.lCust2 5)) (under customConfig)) (under customConfig) :=
  ⟨by decide +kernel, by decide +kernel, rfl⟩
/-- R113, R115, R301: a custom word of an absent width is an illegal instruction. -/
theorem test_custom_absent : run at32 0xC80110E0#32 (fun t => [t.pc.toNat]) = [0x700] := by decide +kernel
/-- R104, R109 to R111, R115: a `-` bit of a custom word is refused before the unit is asked for. -/
theorem test_custom_reserved :
    refusal at32 0x280001C0#32 = some (.reservedBits "lv.cust1") ∧ refusal at32 0xC80101D0#32 = some (.reservedBits "lf.cust1.s") ∧
    refusal at64 0x280000C1#32 = some (.reservedBits "lv.cust1") ∧ refusal at64 0xC82010E0#32 = some (.reservedBits "lf.cust1.d") := by
  decide +kernel
/-- R517: under the fault reading `l.sys` ends the run. -/
theorem test_fault_reading :
    exec (.lSys 0) (under { defaultConfig with excReading := .fault }) = .fault (.raised .systemCall 0x2000#64) := by rfl
/-- R508: the resume address of a trap is configuration data. -/
theorem test_trap_resume :
    run (under { defaultConfig with exceptions := { defaultExceptions with trap := ⟨0xE00#32, .next⟩ } }) 0x21000000#32
      (fun t => [t.pc.toNat, t.epcr.toNat]) = [0xE00, 0x2004] := by decide +kernel

/-- The machine with no optional unit. -/
theorem witness_AbsentUnitIsIllegal :
    let s := under { defaultConfig with
      hasMul := false, hasDiv := false, hasMac := false, hasExt := false, hasCmov := false, hasFf1 := false, hasRor := false,
      hasLwa := false }
    s.cfg.hasMul = false ∧ s.cfg.hasDiv = false ∧ s.cfg.hasMac = false ∧ s.cfg.hasExt = false ∧ s.cfg.hasCmov = false ∧
      s.cfg.hasFf1 = false ∧ s.cfg.hasRor = false ∧ s.cfg.hasLwa = false ∧ s.cfg.xlen = .x32 ∧ s.cfg.hasFpx32 = false ∧
      s.cfg.hasFpx64 = false ∧ s.cfg.hasVdx64 = false := by decide

/-! ### Witnesses: floating point and vectors -/

/-- A machine whose record `FP` is not IEEE 754, and one without the class flags. -/
def otherFpConfig : Config := { fullConfig with fp := .other 0 }
def noClassConfig : Config := { fullConfig with fpClassFlags := false }

/-- FPCSR after `lf.add.s`. -/
def fpSum (c : Config) (a b : Nat) : Nat :=
  (after (execLfAddS 3 1 2 (((under c).setReg 1 (BitVec.ofNat 64 a)).setReg 2 (BitVec.ofNat 64 b)))).fpcsr.toNat

/-- R56, R300: a sum that is a zero or an infinity sets its class flag, one or a subnormal number none; without `FP_CLASS_FLAGS` none does. -/
theorem test_class_flags :
    [fpSum fullConfig 0x3F800000 0xBF800000, fpSum fullConfig 0xFF800000 0x3F800000, fpSum fullConfig 0x3F800000 0,
        fpSum fullConfig 1 0] = [0x80, 0x400, 0, 0] ∧ fpSum noClassConfig 0x3F800000 0xBF800000 = 0 := by decide +kernel

/-- Both formats and both records, with and without class flags, FPEE clear, and FPEE set with a flag raised: one divided by zero. -/
theorem witness_FloatArithmeticDataFlow :
    at64.cfg.fp = .ieee ∧ at64.cfg.fpClassFlags = true ∧ (under noClassConfig).cfg.fp = .ieee ∧
    (under noClassConfig).cfg.fpClassFlags = false ∧ (under otherFpConfig).cfg.fp = .other 0 ∧
    (under otherFpConfig).cfg.hasFpx32 = true ∧ (under otherFpConfig).cfg.hasFpx64 = true ∧ (under otherFpConfig).cfg.xlen = .x64 ∧
    at64.cfg.hasFpx32 = true ∧ at64.cfg.hasFpx64 = true ∧ at64.cfg.xlen = .x64 ∧ at64.fpcsr.getLsbD 0 = false ∧
    (let s := { at64.setReg 1 0x3F800000#64 with fpcsr := 1#32 }
     s.fpcsr.getLsbD 0 = true ∧
       (fpDiv fpSingle s.cfg (roundingOf s.fpcsr) s.free (s.uval 1 % 2 ^ fpSingle.width) (s.uval 2 % 2 ^ fpSingle.width)).flags ≠ 0#9) := by
  decide +kernel

/-- One and a half; a number of the integer's range, exact and not; one out of it: 2 to the 31st, single. With FPEE: the integer
2 to the 24th plus one, which is inexact. -/
theorem witness_FloatConversions :
    at64.cfg.fp = .ieee ∧ (under otherFpConfig).cfg.fp = .other 0 ∧ at64.cfg.hasFpx32 = true ∧ at64.cfg.hasFpx64 = true ∧ at64.cfg.xlen = .x64 ∧ at64.fpcsr.getLsbD 0 = false ∧
    (fpExp fpSingle 0x3FC00000 < fpSingle.emax ∧ RoundsToInt .nearest (fpVal fpSingle 0x3FC00000) (2 ^ fpSingle.unit) 2 ∧
      ¬ OutOfRange fpSingle.width 2 ∧ fpVal fpSingle 0x3FC00000 ≠ 2 * 2 ^ fpSingle.unit) ∧
    (fpVal fpSingle 0x40000000 = 2 * 2 ^ fpSingle.unit) ∧
    (fpExp fpSingle 0x4F000000 < fpSingle.emax ∧ RoundsToInt .nearest (fpVal fpSingle 0x4F000000) (2 ^ fpSingle.unit) (2 ^ 31) ∧
      OutOfRange fpSingle.width (2 ^ 31)) ∧ fpIsNan fpSingle 0x7FC00000 = true ∧ fpIsInf fpSingle 0xFF800000 = true ∧
    (let s := { at64.setReg 1 0x01000001#64 with fpcsr := 1#32 }
     s.fpcsr.getLsbD 0 = true ∧ (fpOfInt fpSingle s.cfg .nearest 0x01000001).flags ≠ 0#9) := by
  unfold RoundsToInt OutOfRange; decide +kernel

theorem witness_FloatCompareResult :
    at64.cfg.fp = .ieee ∧ (under otherFpConfig).cfg.fp = .other 0 ∧ at64.cfg.hasFpx32 = true ∧ at64.cfg.hasFpx64 = true ∧ at64.cfg.xlen = .x64 ∧ at64.cfg.fpCmpFlags = false ∧
    (fpIsNan fpSingle 0x7F800001 || fpIsNan fpSingle 0) = true ∧ (fpIsNan fpSingle 0x7F800000 || fpIsNan fpSingle 0) = false ∧
    (under { fullConfig with fpCmpFlags := true }).cfg.fpCmpFlags = true := by decide +kernel

theorem witness_UndefinedAccumulators :
    at64.cfg.hasFpx32 = true ∧ (at64.cfg.hasFpx64 && at64.cfg.xlen == .x64) = true ∧ at64.cfg.hasVdx64 = true ∧
    (under { fullConfig with fpMadd := .illegal, lvVmac := .illegal }).cfg.fpMadd = .illegal ∧
    (under { fullConfig with fpMadd := .illegal, lvVmac := .illegal }).cfg.lvVmac = .illegal ∧
    (under { fullConfig with fpMadd := .free, lvVmac := .free }).cfg.fpMadd = .free ∧
    (under { fullConfig with fpMadd := .free, lvVmac := .free }).cfg.lvVmac = .free ∧
    (under { fullConfig with fpMadd := .free, lvVmac := .free }).fpcsr.getLsbD 0 = false ∧
    ({ under { fullConfig with fpMadd := .free } with fpcsr := 1#32 }).fpcsr.getLsbD 0 = true ∧
    at64.cfg.fpMadd = .refuse ∧ at64.cfg.lvVmac = .refuse := by decide

/-- A third, rounded; overflow in each mode, at its boundary for the nearest: the largest number plus half its last place and plus
a little less; sums that are zero; a remainder and its quotient; a product tiny before rounding and not after, one tiny either way. -/
theorem witness_FloatOperationsRoundCorrectly :
    (FpFinite fpSingle 0x3F800000 ∧ FpFinite fpSingle 0x40400000 ∧ fpVal fpSingle 0x40400000 ≠ 0 ∧ fpVal fpSingle 0x3F800000 ≠ 0) ∧
    (FpFinite fpSingle 0x7F7FFFFF ∧ FpFinite fpSingle 0x73000000 ∧ FpFinite fpSingle 0x72FFFFFF ∧
      FpOverflows fpSingle .nearest (fpVal fpSingle 0x7F7FFFFF + fpVal fpSingle 0x73000000) 1 ∧
      ¬ FpOverflows fpSingle .nearest (fpVal fpSingle 0x7F7FFFFF + fpVal fpSingle 0x72FFFFFF) 1 ∧
      FpOverflows fpSingle .up (fpVal fpSingle 0x7F7FFFFF + fpVal fpSingle 0x72FFFFFF) 1 ∧
      FpOverflows fpSingle .zero (fpVal fpSingle 0x7F7FFFFF + fpVal fpSingle 0x7F7FFFFF) 1 ∧
      FpOverflows fpSingle .down (fpVal fpSingle 0xFF7FFFFF + fpVal fpSingle 0xFF7FFFFF) 1) ∧
    (fpVal fpSingle 0x3F800000 + fpVal fpSingle 0xBF800000 = 0 ∧ fpVal fpSingle 0x80000000 + fpVal fpSingle 0x80000000 = 0 ∧
      fpVal fpSingle 0x80000000 * fpVal fpSingle 0x3F800000 = 0) ∧
    RoundsToInt .nearest (fpVal fpSingle 0x3F800000 * (fpVal fpSingle 0x40400000).sign) (fpVal fpSingle 0x40400000).natAbs 0 ∧
    RoundsToInt .zero (fpVal fpSingle 0x3F800000 * (fpVal fpSingle 0x40400000).sign) (fpVal fpSingle 0x40400000).natAbs 0 ∧
    fpVal fpSingle 0x40400000 = fpVal fpSingle 0x3F800000 * 3 ∧
    (FpFinite fpSingle 0x00800001 ∧ FpFinite fpSingle 0x3F7FFFFE ∧
      FpTiny fpSingle false .nearest (fpVal fpSingle 0x00800001 * fpVal fpSingle 0x3F7FFFFE) (2 ^ fpSingle.unit) ∧
      ¬ FpTiny fpSingle true .nearest (fpVal fpSingle 0x00800001 * fpVal fpSingle 0x3F7FFFFE) (2 ^ fpSingle.unit) ∧
      FpTiny fpSingle true .nearest (fpVal fpSingle 1 * fpVal fpSingle 0x3FC00000) (2 ^ fpSingle.unit)) := by
  unfold FpFinite FpOverflows FpTiny RoundsToInt; decide +kernel

/-- R300, R56: UNF of an inexact product that rounds up to the least normal number, under each reading of tininess, of an inexact
subnormal one, and of an exact subnormal one. -/
theorem test_fp_underflow :
    fpMul fpSingle defaultConfig .nearest 0#64 0x00800001 0x3F7FFFFE = ⟨0x00800000, flUNF ||| flIXF, false⟩ ∧
      fpMul fpSingle { defaultConfig with fpTinyAfter := true } .nearest 0#64 0x00800001 0x3F7FFFFE = ⟨0x00800000, flIXF, false⟩ ∧
      fpMul fpSingle defaultConfig .nearest 0#64 1 0x3FC00000 = ⟨2, flUNF ||| flIXF, false⟩ ∧
      fpMul fpSingle defaultConfig .nearest 0#64 0x00800000 0x3F000000 = ⟨0x00400000, 0#9, false⟩ := by decide +kernel

/-- R300: the largest number doubled, toward zero and to nearest. -/
theorem test_fp_overflow :
    fpAdd fpSingle defaultConfig .zero 0#64 0x7F7FFFFF 0x7F7FFFFF = ⟨0x7F7FFFFF, flOVF ||| flIXF, false⟩ ∧
      fpAdd fpSingle defaultConfig .nearest 0#64 0x7F7FFFFF 0x7F7FFFFF = ⟨0x7F800000, flOVF ||| flIXF, false⟩ := by decide +kernel

theorem witness_FloatSpecialResults :
    (0x7F800001 < 2 ^ fpSingle.width ∧ fpIsNan fpSingle 0x7F800001 = true ∧ fpIsSnan fpSingle 0x7F800001 = true ∧
      fpIsNan fpSingle 0x7FC00000 = true ∧ fpIsSnan fpSingle 0x7FC00000 = false ∧ fpIsSnan fpSingle 0x3F800000 = false) ∧
    (fpIsInf fpSingle 0x7F800000 = true ∧ fpIsInf fpSingle 0xFF800000 = true ∧
      (fpNeg fpSingle 0x7F800000 != fpNeg fpSingle 0xFF800000) = true ∧ (fpNeg fpSingle 0x7F800000 != fpNeg fpSingle 0x7F800000) = false) ∧
    (FpFinite fpSingle 0x3F800000 ∧ fpIsZero fpSingle 0x3F800000 = false ∧ FpFinite fpSingle 0x80000000 ∧
      fpIsZero fpSingle 0x80000000 = true) := by
  unfold FpFinite; decide +kernel

theorem witness_VectorArithmetic : at64.cfg.hasVdx64 = true ∧ at64.cfg.xlen = .x64 := by decide

theorem witness_VectorCompare :
    at64.cfg.hasVdx64 = true ∧ at64.cfg.xlen = .x64 ∧ at64.cfg.lvSetsF = false ∧
    (under { fullConfig with lvSetsF := true, lvCmpSigned := false }).cfg.lvSetsF = true := by decide

theorem witness_VectorSelectAndLogic :
    at64.cfg.hasVdx64 = true ∧ at64.cfg.xlen = .x64 ∧ at64.cfg.lvAvg = .exact ∧
    (under { fullConfig with lvAvg := .wrap }).cfg.lvAvg = .wrap ∧ (under { fullConfig with lvAvg := .signed }).cfg.lvAvg = .signed ∧
    (under { fullConfig with lvAvg := .wrap }).cfg.hasVdx64 = true := by decide

theorem witness_VectorShift :
    at64.cfg.hasVdx64 = true ∧ at64.cfg.xlen = .x64 ∧ at64.cfg.lvWholeShift = .line ∧
    (under { fullConfig with lvWholeShift := .illegal }).cfg.lvWholeShift = .illegal ∧
    (under { fullConfig with lvWholeShift := .refuse }).cfg.lvWholeShift = .refuse := by decide

theorem witness_VectorPackMergePermute : at64.cfg.hasVdx64 = true ∧ at64.cfg.xlen = .x64 ∧ at64.cfg.lvMerge = .line := by decide

end Sys2Proof.Tests
end

section
/-! PROOFS. The invariant is kept by every instruction, and so by every step (O14): first the shared endings of
instructions that `Laws/Invariant.lean` leaves, then each instruction by its ending. -/

open Sys2Proof Sys2Proof.Machine

namespace Sys2Proof.Machine

variable {s u : State}

/-! ### Shared endings -/

theorem keeps_nextOf {c : Config} (h : Inv u) (hc : u.cfg = c) : Keeps c (.next u) := hc ▸ keeps_next h

theorem keeps_finishOf {c : Config} (h : Inv u) (hc : u.cfg = c) : Keeps c (finish u) := hc ▸ keeps_finish h

theorem Inv.setF (h : Inv u) (b : Bool) : Inv (u.setF b) := h.setFlag srF b (.inl rfl)
theorem Inv.setCY (h : Inv u) (b : Bool) : Inv (u.setCY b) := h.setFlag srCY b (.inr (.inl rfl))
theorem Inv.setOV (h : Inv u) (b : Bool) : Inv (u.setOV b) := h.setFlag srOV b (.inr (.inr rfl))

theorem keeps_regResult (h : Inv s) (rD : RegNum) (v : BitVec s.width) : Keeps s.cfg (regResult s rD v) :=
  keeps_finish (h.setReg_width rD v le_rfl)

theorem keeps_whenPresentRegResult (h : Inv s) (p : Bool) (rD : RegNum) (v : BitVec s.width) :
    Keeps s.cfg (whenPresent p s (regResult s rD v)) :=
  keeps_whenPresent h p fun _ => keeps_regResult h rD v

theorem keeps_extend (h : Inv s) (rD rA : RegNum) (k : Nat) (sign : Bool) : Keeps s.cfg (extend s rD rA k sign) :=
  keeps_whenPresentRegResult h _ rD _

theorem keeps_addArith (h : Inv s) (rD : RegNum) (r : AddResult s.width) : Keeps s.cfg (addArith s rD r) :=
  keeps_arithEvent (((h.setReg_width rD r.res le_rfl).setCY r.cy).setOV r.ov) _

theorem keeps_mulArith (h : Inv s) (rD : RegNum) (r : BitVec s.width × Bool) : Keeps s.cfg (mulArith s rD r) :=
  keeps_arithEvent ((h.setReg_width rD r.1 le_rfl).setOV r.2) _

theorem keeps_execLMulu (h : Inv s) (rD rA rB : RegNum) : Keeps s.cfg (execLMulu rD rA rB s) :=
  keeps_whenPresent h _ fun _ => keeps_arithEvent ((h.setReg_width rD (mulUnsigned (s.reg rA) (s.reg rB)).1 le_rfl).setCY _) _

theorem keeps_execLDiv (h : Inv s) (rD rA rB : RegNum) : Keeps s.cfg (execLDiv rD rA rB s) := by
  refine keeps_whenPresent h _ fun _ => ?_
  have hr : ∀ v : BitVec s.width, Inv (s.setReg rD v) := fun v => h.setReg_width rD v le_rfl
  split_ifs
  · exact keeps_arithEvent ((hr _).setOV true).spend _
  · exact keeps_finish ((hr _).setOV false).spend
  · exact keeps_finish ((hr _).setOV false)

theorem keeps_execLDivu (h : Inv s) (rD rA rB : RegNum) : Keeps s.cfg (execLDivu rD rA rB s) := by
  refine keeps_whenPresent h _ fun _ => ?_
  have hr : ∀ v : BitVec s.width, Inv (s.setReg rD v) := fun v => h.setReg_width rD v le_rfl
  split_ifs
  · exact keeps_arithEvent ((hr _).setCY true).spend _
  · exact keeps_finish ((hr _).setCY false)

theorem keeps_setFlag (h : Inv s) (b : Bool) : Keeps s.cfg (setFlag s b) := keeps_finish (h.setF b)

/-! ### Jumps -/

theorem keeps_takeJump (h : Inv u) {c : Config} (hc : u.cfg = c) (x : BitVec 64) (hx : Narrow u x) :
    Keeps c (.next (u.takeJump x)) :=
  keeps_nextOf (h.takeJump x hx) (by rw [State.takeJump_cfg, hc])

theorem narrow_branchTarget (s : State) (n : BitVec 26) : Narrow s (branchTarget s n) := narrow_trunc s _

theorem narrow_registerTarget (s : State) (rB : RegNum) : Narrow s (registerTarget s rB) :=
  narrow_setWidth (s := s) (s.reg rB) (s.reg rB).isLt

theorem keeps_branchIf (h : Inv s) (taken : Bool) (n : BitVec 26) : Keeps s.cfg (branchIf s taken n) := by
  refine keeps_outsideSlot _ _ ?_
  split
  · exact keeps_takeJump h rfl _ (narrow_branchTarget s n)
  · exact keeps_finish h

theorem keeps_jump (h : Inv s) (x : BitVec 64) (hx : Narrow s x) : Keeps s.cfg (outsideSlot s (.next (s.takeJump x))) :=
  keeps_outsideSlot _ _ (keeps_takeJump h rfl x hx)

theorem keeps_jumpAndLink (h : Inv s) (x : BitVec 64) (hx : Narrow s x) : Keeps s.cfg (jumpAndLink s x) := by
  have hl : Inv (s.setReg linkReg (linkAddr s)) := h.setReg linkReg _ (narrow_trunc s _)
  exact keeps_outsideSlot _ _ (keeps_takeJump hl rfl x (hx.congr rfl))

theorem keeps_execLJalr (h : Inv s) (rB : RegNum) : Keeps s.cfg (execLJalr rB s) := by
  unfold execLJalr
  split
  · exact keeps_refused _ _
  · exact keeps_jumpAndLink h _ (narrow_registerTarget s rB)

/-! ### The reserved pair -/

/-- Without an MMU the word an access of four bytes reaches is aligned (R86). -/
theorem access_aligned {k : AccessKind} {ea : BitVec 64} {pa : Nat} (hm : s.cfg.hasMmu = false)
    (ha : access s k 4 ea = .ok pa) : pa % 4 = 0 := by
  obtain ⟨hal, htr, -⟩ := access_ok ha
  rw [translate_noMmu hm] at htr
  cases htr
  exact hal

theorem keeps_execLLwa (h : Inv s) (rD rA : RegNum) (imm : BitVec 16) : Keeps s.cfg (execLLwa rD rA imm s) := by
  refine keeps_whenPresent h _ fun _ => ?_
  split
  · exact keeps_accessError h ‹_› (narrow_effectiveAddr s rA imm)
  · rename_i pa ha
    exact keeps_finish ((h.setReg_width rD _ le_rfl).setResv (some pa) fun hm a he => Option.some.inj he ▸ access_aligned hm ha)

theorem keeps_execLSwa (h : Inv s) (rA rB : RegNum) (imm : BitVec 16) : Keeps s.cfg (execLSwa rA rB imm s) := by
  refine keeps_whenPresent h _ fun _ => ?_
  split
  · exact keeps_accessError h ‹_› (narrow_effectiveAddr s rA imm)
  · rename_i pa _
    split
    · exact keeps_finish (((h.storeDatum pa 4 _).setF true).setResv none (by simp))
    · exact keeps_finish ((h.setF false).setResv none (by simp))

/-! ### The accumulator -/

theorem keeps_macSigned (h : Inv s) (r : BitVec 64 × Bool) : Keeps s.cfg (macSigned s r) :=
  keeps_whenPresent h _ fun _ => keeps_arithEvent ((h.setAcc r.1).setOV r.2) _

theorem keeps_macUnsigned (h : Inv s) (r : BitVec 64 × Bool) : Keeps s.cfg (macUnsigned s r) :=
  keeps_whenPresent h _ fun _ => keeps_arithEvent ((h.setAcc r.1).setCY r.2) _

theorem keeps_execLMacrc (h : Inv s) (rD : RegNum) : Keeps s.cfg (execLMacrc rD s) :=
  keeps_whenPresent h _ fun _ => keeps_finish ((h.setReg_width rD (s.acc.setWidth s.width) le_rfl).setAcc 0#64)

theorem keeps_execLMuld (h : Inv s) (rA rB : RegNum) : Keeps s.cfg (execLMuld rA rB s) := by
  refine keeps_whenPresent h _ fun _ => ?_
  dsimp only
  split
  · exact keeps_finish (h.setAcc _)
  · exact keeps_arithEvent ((h.setAcc _).setOV _) _

theorem keeps_execLMuldu (h : Inv s) (rA rB : RegNum) : Keeps s.cfg (execLMuldu rA rB s) := by
  refine keeps_whenPresent h _ fun _ => ?_
  dsimp only
  split
  · exact keeps_finish (h.setAcc _)
  · exact keeps_arithEvent ((h.setAcc _).setCY _) _

/-! ### System instructions -/

theorem State.width_ge (s : State) : 32 ≤ s.width := by have := s.width_cases; omega

theorem keeps_regResultSpr (h : Inv s) (rD : RegNum) (v : BitVec 32) : Keeps s.cfg (regResultSpr s rD v) :=
  keeps_finish (h.setReg_width rD v s.width_ge)

theorem keeps_execLMtspr (h : Inv s) (rA rB : RegNum) (imm : BitVec 16) : Keeps s.cfg (execLMtspr rA rB imm s) := by
  refine keeps_privileged h (keeps_finish h) ?_
  split
  · rename_i t ht
    obtain ⟨hinv, hcfg⟩ := h.sprWrite ht
    exact keeps_finishOf hinv hcfg
  · exact keeps_refused _ _

theorem keeps_execLRfe (h : Inv s) : Keeps s.cfg (execLRfe s) :=
  keeps_privileged h (keeps_finish h) (keeps_outsideSlot _ _ (keeps_returnFromException h))

theorem keeps_execLSys (h : Inv s) (imm : BitVec 16) : Keeps s.cfg (execLSys imm s) := by
  unfold execLSys
  split
  · exact keeps_refused _ _
  · exact keeps_raise h _ (.inl rfl)

theorem keeps_execLTrap (h : Inv s) (imm : BitVec 16) : Keeps s.cfg (execLTrap imm s) := by
  unfold execLTrap
  split
  · exact keeps_refused _ _
  · exact keeps_raise h _ (.inl rfl)

theorem keeps_unitCustom (h : Inv s) (m : String) (reserved : InsnWord) (p : Bool) (x : InsnWord) :
    Keeps s.cfg (unitCustom m reserved p x s) := by
  obtain ⟨-, he⟩ | ⟨-, -, he⟩ | ⟨-, -, he⟩ := unitCustom_cases m reserved p x s <;> rw [he]
  · exact keeps_refused _ _
  · exact keeps_illegal h
  · exact keeps_customOp h x

/-! ### Floating point -/

theorem fpSingle_le_width (s : State) : fpSingle.width ≤ s.width := s.width_ge

theorem fpDouble_le_width (hp : hasDouble s.cfg = true) : fpDouble.width ≤ s.width := by
  have hx : s.cfg.xlen = .x64 := by
    rw [hasDouble, Bool.and_eq_true, beq_iff_eq] at hp
    exact hp.2
  rw [State.width_x64 hx]
  exact le_rfl

theorem keeps_fpArith {f : FpFormat} (h : Inv s) (hf : f.Ok) (hw : f.width ≤ s.width) (o : FpOp) (rD rA rB : RegNum) :
    Keeps s.cfg (fpArith f o s rD rA rB) :=
  keeps_fpResult h rD _ (fpApply_lt hf o s.cfg s.fpcsr s.free (fpOperand_lt f s rA) (fpOperand_lt f s rB)) hw

theorem keeps_fpConvert {f : FpFormat} (h : Inv s) (hf : f.Ok) (hw : f.width ≤ s.width) (o : FpOp) (rD rA : RegNum) :
    Keeps s.cfg (fpConvert f o s rD rA) :=
  keeps_fpResult h rD _ (fpApply_lt hf o s.cfg s.fpcsr s.free (fpOperand_lt f s rA) (Nat.two_pow_pos _)) hw

theorem keeps_fpCompareOp (h : Inv s) (f : FpFormat) (holds : FpOrder → Bool) (rA rB : RegNum) :
    Keeps s.cfg (fpCompareOp f holds s rA rB) := by
  unfold fpCompareOp
  dsimp only
  split
  · exact keeps_finish ((h.setF _).orFpcsr flIVF)
  · exact keeps_finish (h.setF _)

theorem keeps_fpDone (h : Inv u) (fl : BitVec 9) : Keeps u.cfg (fpDone u fl) := by
  unfold fpDone
  dsimp only
  split
  · exact keeps_raise (h.orFpcsr fl) .floatingPoint (.inl rfl)
  · exact keeps_finish (h.orFpcsr fl)

theorem keeps_fpMaddOp (h : Inv s) : Keeps s.cfg (fpMaddOp s) := by
  unfold fpMaddOp
  split
  · exact keeps_refused _ _
  · exact keeps_illegal h
  · exact keeps_fpDone (h.spend.setFpmadd _ _).spend _

theorem keeps_singleArith (h : Inv s) (o : FpOp) (rD rA rB : RegNum) :
    Keeps s.cfg (whenPresent (hasSingle s.cfg) s (fpArith fpSingle o s rD rA rB)) :=
  keeps_whenPresent h _ fun _ => keeps_fpArith h fpSingle_ok (fpSingle_le_width s) o rD rA rB

theorem keeps_doubleArith (h : Inv s) (o : FpOp) (rD rA rB : RegNum) :
    Keeps s.cfg (whenPresent (hasDouble s.cfg) s (fpArith fpDouble o s rD rA rB)) :=
  keeps_whenPresent h _ fun hp => keeps_fpArith h fpDouble_ok (fpDouble_le_width hp) o rD rA rB

theorem keeps_singleConvert (h : Inv s) (o : FpOp) (rD rA : RegNum) :
    Keeps s.cfg (whenPresent (hasSingle s.cfg) s (fpConvert fpSingle o s rD rA)) :=
  keeps_whenPresent h _ fun _ => keeps_fpConvert h fpSingle_ok (fpSingle_le_width s) o rD rA

theorem keeps_doubleConvert (h : Inv s) (o : FpOp) (rD rA : RegNum) :
    Keeps s.cfg (whenPresent (hasDouble s.cfg) s (fpConvert fpDouble o s rD rA)) :=
  keeps_whenPresent h _ fun hp => keeps_fpConvert h fpDouble_ok (fpDouble_le_width hp) o rD rA

theorem keeps_whenPresentCompare (h : Inv s) (p : Bool) (f : FpFormat) (holds : FpOrder → Bool) (rA rB : RegNum) :
    Keeps s.cfg (whenPresent p s (fpCompareOp f holds s rA rB)) :=
  keeps_whenPresent h p fun _ => keeps_fpCompareOp h f holds rA rB

/-! ### Vectors -/

theorem Inv.setReg64 (h : Inv s) (hp : hasVector s.cfg = true) (rD : RegNum) (v : BitVec 64) : Inv (s.setReg rD v) := by
  obtain ⟨-, hx⟩ := (hasVector_iff s.cfg).1 hp
  exact h.setReg_width rD v (State.width_x64 hx).ge

theorem keeps_vecResult (h : Inv s) (rD : RegNum) (v : BitVec 64) : Keeps s.cfg (vecResult s rD v) :=
  keeps_whenPresent h _ fun hp => keeps_finish (h.setReg64 hp rD v)

theorem keeps_vecLanes (h : Inv s) (w : Nat) (g : BitVec w → BitVec w → BitVec w) (rD rA rB : RegNum) :
    Keeps s.cfg (vecLanes w g s rD rA rB) := keeps_vecResult h rD _

theorem keeps_vecFlag (h : Inv s) (rD : RegNum) (flag : Bool) : Keeps s.cfg (vecFlag s rD flag) := by
  refine keeps_whenPresent h _ fun hp => ?_
  dsimp only
  split
  · exact keeps_finish ((h.setReg64 hp rD _).setF flag)
  · exact keeps_finish (h.setReg64 hp rD _)

theorem keeps_vecWholeShift (h : Inv s) (rD : RegNum) (v : BitVec 64) : Keeps s.cfg (vecWholeShift s rD v) := by
  refine keeps_whenPresent h _ fun hp => ?_
  split
  · exact keeps_finish (h.setReg64 hp rD v)
  · exact keeps_refused _ _
  · exact keeps_illegal h

theorem keeps_vecMacOp (h : Inv s) (rD : RegNum) : Keeps s.cfg (vecMacOp s rD) := by
  refine keeps_whenPresent h _ fun hp => ?_
  split
  · exact keeps_refused _ _
  · exact keeps_illegal h
  · exact keeps_finish ((((h.setReg64 hp rD _).spend.setVmachi _).spend.setVmaclo _).spend)

/-! ### Every instruction, by its ending -/

/-- Every instruction keeps the invariant and the configuration. -/
theorem keeps_exec (h : Inv s) (i : Instr) : Keeps s.cfg (exec i s) := by
  cases i with
  | lAdd | lAddc | lAddi | lAddic | lSub => exact keeps_addArith h _ _
  | lAnd | lAndi | lMovhi | lOr | lOri | lSll | lSlli | lSra | lSrai | lSrl | lSrli | lXor | lXori =>
    exact keeps_regResult h _ _
  | lCmov | lFf1 | lFl1 | lRor | lRori => exact keeps_whenPresentRegResult h _ _ _
  | lExtbs | lExtbz | lExths | lExthz | lExtws | lExtwz => exact keeps_extend h _ _ _ _
  | lMul | lMuli => exact keeps_whenPresent h _ fun _ => keeps_mulArith h _ _
  | lMulu => exact keeps_execLMulu h _ _ _
  | lDiv => exact keeps_execLDiv h _ _ _
  | lDivu => exact keeps_execLDivu h _ _ _
  | lSfeq | lSfeqi | lSfges | lSfgesi | lSfgeu | lSfgeui | lSfgts | lSfgtsi | lSfgtu | lSfgtui | lSfles | lSflesi | lSfleu
  | lSfleui | lSflts | lSfltsi | lSfltu | lSfltui | lSfne | lSfnei => exact keeps_setFlag h _
  | lBf | lBnf => exact keeps_branchIf h _ _
  | lJ n => exact keeps_jump h _ (narrow_branchTarget s n)
  | lJr rB => exact keeps_jump h _ (narrow_registerTarget s rB)
  | lJal n => exact keeps_jumpAndLink h _ (narrow_branchTarget s n)
  | lJalr rB => exact keeps_execLJalr h rB
  | lLbs | lLbz | lLhs | lLhz | lLws | lLwz => exact keeps_loadOp h _ _ _ _ _
  | lLd => exact keeps_whenPresent h _ fun _ => keeps_loadOp h _ _ _ _ _
  | lSb | lSh | lSw => exact keeps_storeOp h _ _ _ _
  | lSd => exact keeps_whenPresent h _ fun _ => keeps_storeOp h _ _ _ _
  | lLwa => exact keeps_execLLwa h _ _ _
  | lSwa => exact keeps_execLSwa h _ _ _
  | lMac | lMaci | lMsb => exact keeps_macSigned h _
  | lMacu | lMsbu => exact keeps_macUnsigned h _
  | lMacrc => exact keeps_execLMacrc h _
  | lMuld => exact keeps_execLMuld h _ _
  | lMuldu => exact keeps_execLMuldu h _ _
  | lNop | lMsync => exact keeps_finish h
  | lCsync | lPsync => exact keeps_finish h.syncFetch
  | lMfspr => exact keeps_privileged h (keeps_regResultSpr h _ _) (keeps_regResultSpr h _ _)
  | lMtspr => exact keeps_execLMtspr h _ _ _
  | lRfe => exact keeps_execLRfe h
  | lSys imm => exact keeps_execLSys h imm
  | lTrap imm => exact keeps_execLTrap h imm
  | lCust1 | lCust2 | lCust3 | lCust4 | lCust5 | lCust6 | lCust7 | lCust8 => exact keeps_customOp h _
  | lfCust1D | lfCust1S | lvCust1 | lvCust2 | lvCust3 | lvCust4 => exact keeps_unitCustom h _ _ _ _
  | lfAddS | lfSubS | lfMulS | lfDivS | lfRemS => exact keeps_singleArith h _ _ _ _
  | lfAddD | lfSubD | lfMulD | lfDivD | lfRemD => exact keeps_doubleArith h _ _ _ _
  | lfFtoiS | lfItofS => exact keeps_singleConvert h _ _ _
  | lfFtoiD | lfItofD => exact keeps_doubleConvert h _ _ _
  | lfMaddD | lfMaddS => exact keeps_whenPresent h _ fun _ => keeps_fpMaddOp h
  | lfSfeqD | lfSfeqS | lfSfgeD | lfSfgeS | lfSfgtD | lfSfgtS | lfSfleD | lfSfleS | lfSfltD | lfSfltS | lfSfneD | lfSfneS =>
    exact keeps_whenPresentCompare h _ _ _ _ _
  | lvAllEqB | lvAllEqH | lvAllGeB | lvAllGeH | lvAllGtB | lvAllGtH | lvAllLeB | lvAllLeH | lvAllLtB | lvAllLtH | lvAllNeB
  | lvAllNeH | lvAnyEqB | lvAnyEqH | lvAnyGeB | lvAnyGeH | lvAnyGtB | lvAnyGtH | lvAnyLeB | lvAnyLeH | lvAnyLtB | lvAnyLtH
  | lvAnyNeB | lvAnyNeH => exact keeps_vecFlag h _ _
  | lvSll | lvSrl => exact keeps_vecWholeShift h _ _
  | lvMaddsH | lvMsubsH => exact keeps_vecMacOp h _
  | lvAnd | lvNand | lvNor | lvOr | lvXor | lvMergeB | lvMergeH | lvPackB | lvPackH | lvPacksB | lvPacksH | lvPackusB
  | lvPackusH | lvPermN | lvUnpackB | lvUnpackH => exact keeps_vecResult h _ _
  | lvAddB | lvAddH | lvAddsB | lvAddsH | lvAdduB | lvAdduH | lvAddusB | lvAddusH | lvAvgB | lvAvgH | lvCmpEqB | lvCmpEqH
  | lvCmpGeB | lvCmpGeH | lvCmpGtB | lvCmpGtH | lvCmpLeB | lvCmpLeH | lvCmpLtB | lvCmpLtH | lvCmpNeB | lvCmpNeH | lvMaxB
  | lvMaxH | lvMinB | lvMinH | lvMulsH | lvRlB | lvRlH | lvSllB | lvSllH | lvSraB | lvSraH | lvSrlB | lvSrlH | lvSubB
  | lvSubH | lvSubsB | lvSubsH | lvSubuB | lvSubuH | lvSubusB | lvSubusH => exact keeps_vecLanes h _ _ _ _ _

/-! ### Every step -/

theorem keeps_runBytes (h : Inv s) (bs : List Byte) : Keeps s.cfg (runBytes bs s) := by
  unfold runBytes
  split
  · exact keeps_exec h _
  · exact keeps_refused _ _
  · exact keeps_illegal h
  · exact keeps_illegal h

theorem Inv.narrow_pc (h : Inv s) : Narrow s s.pc := by
  obtain ⟨-, -, -, -, -, -, -, -, -, hpc, -⟩ := h
  exact hpc

/-- An exception of the fetch carries the pc (R76, R509). -/
theorem fetch_exc {e : Exc} (he : fetch s = .exc e) : access s .fetch 4 s.pc = .error e := by
  unfold fetch at he
  split at he
  · cases he; assumption
  · split at he <;> cases he

theorem keeps_runInstruction (h : Inv s) : Keeps s.cfg (runInstruction s) := by
  unfold runInstruction
  split
  · exact keeps_runBytes h _
  · exact keeps_accessError h (fetch_exc ‹_›) h.narrow_pc
  · exact keeps_refused _ _

/-- The interrupts of a boundary are two (R512, R515). -/
theorem boundary_interrupt {i : Input} {e : Exc} (he : boundary i s = .interrupt e) : e = .externalInterrupt ∨ e = .tickTimer := by
  unfold boundary pendingInterrupt at he
  grind

theorem keeps_interrupt (h : Inv s) {i : Input} {e : Exc} (he : boundary i s = .interrupt e) : Keeps s.cfg (raise s e) := by
  obtain rfl | rfl := boundary_interrupt he
  · exact keeps_raise h _ (.inl rfl)
  · exact keeps_raise h _ (.inl rfl)

/-- What one step can do: the reset, an interrupt or the instruction, each from the state with the input taken in. -/
theorem keeps_step (h : Inv s) : Keeps s.cfg (step s) := by
  have hi : Inv (takeInput s) := h.takeInput
  unfold step
  split
  · exact keeps_nextOf (warmReset_inv hi) (warmReset_cfg _)
  · exact keeps_interrupt hi ‹_›
  · exact keeps_runInstruction hi

end Sys2Proof.Machine

/-- Settles O14: each instruction keeps the invariant by its ending (`keeps_exec`), and so does what stands around it. -/
theorem stepKeepsInvariant : Obligations.StepKeepsInvariant := by
  unfold Obligations.StepKeepsInvariant
  exact fun s t h ht => keeps_step h t ht

end

section
/-! PROOFS. Floating-point data flow (O50) and compares (O52): each instruction once, by its ending, for either format
and either kind of record. -/

open Sys2Proof Sys2Proof.Machine

namespace Sys2Proof.Machine

variable {f : FpFormat} {s : State} {i : Instr}

/-! ### The two formats -/

/-- What the statements assume of the format of an instruction: its unit and its width are there (R301). -/
def HasFormat (c : Config) (f : FpFormat) : Prop :=
  (f = fpSingle → c.hasFpx32 = true) ∧ (f = fpDouble → c.hasFpx64 = true ∧ c.xlen = .x64)

theorem HasFormat.single (h : HasFormat s.cfg fpSingle) : hasSingle s.cfg = true := h.1 rfl

theorem HasFormat.double (h : HasFormat s.cfg fpDouble) : hasDouble s.cfg = true := by
  obtain ⟨h64, hx⟩ := h.2 rfl
  simp [hasDouble, h64, hx]

/-! ### Arithmetic -/

theorem fpOperand_eq (f : FpFormat) (s : State) (r : RegNum) : fpOperand f s r = s.uval r % 2 ^ f.width := rfl

/-- The flags another record may raise where there are no class flags. -/
theorem compl_flClass : ~~~flClass = 0x163#9 := by decide

theorem fpOther_flags (k : Nat) (o : FpOp) (f : FpFormat) (c : Config) (fpcsr : BitVec 32) (a b : Nat) :
    (fpOther k o f c fpcsr a b).flags =
      let fl := (Config.fpOperation k o f.width fpcsr (BitVec.ofNat 64 a) (BitVec.ofNat 64 b)).2
      if c.fpClassFlags then fl else fl &&& 0x163#9 := by
  rw [← compl_flClass]; rfl

/-- Under another record: what the member delivers, and no free value (R300). -/
theorem fpOutcome_other {o : FpOp} {n : Nat} {rD : RegNum} {a b : Nat} (hw : f.width ≤ s.width) (hn : s.cfg.fp = .other n)
    (he : exec i s = fpResult s rD (fpApply o f s.cfg s.fpcsr s.free a b)) :
    let r := Config.fpOperation n o f.width s.fpcsr (BitVec.ofNat 64 a) (BitVec.ofNat 64 b)
    FpOutcome i s rD [.reg rD, .fpcsr] (r.1.toNat % 2 ^ f.width) (if s.cfg.fpClassFlags then r.2 else r.2 &&& 0x163#9) := by
  rw [fpApply_other hn] at he
  have hout := fpOutcome_of_exec he (fpWritten_frame_exact s rD _ rfl) (Nat.mod_lt _ (Nat.two_pow_pos f.width)) hw
  rwa [fpOther_flags] at hout

/-- The flags of a result with its class, bit by bit (R56, R300). -/
theorem withClass_flags_bit {c : Config} (hc : c.fpClassFlags = true) (r : FpResult) (k : Nat) :
    (withClass f c r).flags.getLsbD k = true ↔ r.flags.getLsbD k = true ∨ FpClass f r.bits k := by
  rw [withClass_flags, if_pos hc, BitVec.getLsbD_or, Bool.or_eq_true, classFlags_bit]

/-- Under the default record: the result of the IEEE operation, with the flag of its class under `FP_CLASS_FLAGS`. -/
theorem fpOutcome_withClass {rD : RegNum} {r : FpResult} (hw : f.width ≤ s.width) (hr : r.bits < 2 ^ f.width)
    (he : exec i s = fpResult s rD (withClass f s.cfg r)) :
    ∃ fl : BitVec 9, FpOutcome i s rD [.reg rD, .fpcsr, .draws] r.bits fl ∧
      (s.cfg.fpClassFlags = false → fl = r.flags) ∧
      (s.cfg.fpClassFlags = true → ∀ k, fl.getLsbD k = true ↔ r.flags.getLsbD k = true ∨ FpClass f r.bits k) := by
  refine ⟨(withClass f s.cfg r).flags, ?_, fun hc => ?_, fun hc => withClass_flags_bit hc r⟩
  · rw [← withClass_bits (f := f) s.cfg r]
    exact fpOutcome_of_exec he (fpWritten_frame s rD _) (by rwa [withClass_bits]) hw
  · rw [withClass_flags, hc]; rfl

/-- The members of the default record for arithmetic on two operands, and the operation each is (R300). -/
def fpBinary : List (FpOp × (FpFormat → Config → Rounding → BitVec 64 → Nat → Nat → FpResult)) :=
  [(.add, fpAdd), (.sub, fpSub), (.mul, fpMul), (.div, fpDiv), (.rem, fpRem)]

theorem fpIeee_binary {o : FpOp} {op : FpFormat → Config → Rounding → BitVec 64 → Nat → Nat → FpResult} (ho : (o, op) ∈ fpBinary)
    (f : FpFormat) (c : Config) (rm : Rounding) (free : BitVec 64) (a b : Nat) :
    fpIeee o f c rm free a b = withClass f c (op f c rm free a b) := by
  simp only [fpBinary, List.mem_cons, Prod.mk.injEq, List.not_mem_nil, or_false] at ho
  obtain ⟨rfl, rfl⟩ | ⟨rfl, rfl⟩ | ⟨rfl, rfl⟩ | ⟨rfl, rfl⟩ | ⟨rfl, rfl⟩ := ho <;> rfl

/-- What the statement asks of an instruction that applies the member `o` to two registers. -/
def FpArithFlow (i : Instr) (f : FpFormat) (o : FpOp) (op : FpFormat → Config → Rounding → BitVec 64 → Nat → Nat → FpResult)
    (s : State) (rD rA rB : RegNum) : Prop :=
  let a := s.uval rA % 2 ^ f.width
  let b := s.uval rB % 2 ^ f.width
  (s.cfg.fp = .ieee →
    let r := op f s.cfg (roundingOf s.fpcsr) s.free a b
    ∃ fl : BitVec 9, FpOutcome i s rD [.reg rD, .fpcsr, .draws] r.bits fl ∧
      (s.cfg.fpClassFlags = false → fl = r.flags) ∧
      (s.cfg.fpClassFlags = true → ∀ k, fl.getLsbD k = true ↔ r.flags.getLsbD k = true ∨ FpClass f r.bits k)) ∧
  (∀ n, s.cfg.fp = .other n →
    let r := Config.fpOperation n o f.width s.fpcsr (BitVec.ofNat 64 a) (BitVec.ofNat 64 b)
    FpOutcome i s rD [.reg rD, .fpcsr] (r.1.toNat % 2 ^ f.width) (if s.cfg.fpClassFlags then r.2 else r.2 &&& 0x163#9))

theorem fpArithFlow_of_exec {o : FpOp} {op : FpFormat → Config → Rounding → BitVec 64 → Nat → Nat → FpResult}
    (ho : (o, op) ∈ fpBinary) (hf : f.Ok) (hw : f.width ≤ s.width) {rD rA rB : RegNum}
    (he : exec i s = fpArith f o s rD rA rB) : FpArithFlow i f o op s rD rA rB := by
  refine ⟨fun hi => ?_, fun n hn => fpOutcome_other hw hn he⟩
  have hlt := fpIeee_lt hf o s.cfg (roundingOf s.fpcsr) s.free (fpOperand_lt f s rA) (fpOperand_lt f s rB)
  rw [fpIeee_binary ho, withClass_bits] at hlt
  rw [fpArith, fpApply_ieee hi, fpIeee_binary ho] at he
  exact fpOutcome_withClass hw hlt he

theorem fpArithFlow_single {o : FpOp} {op : FpFormat → Config → Rounding → BitVec 64 → Nat → Nat → FpResult}
    (ho : (o, op) ∈ fpBinary) (h : HasFormat s.cfg fpSingle) {rD rA rB : RegNum}
    (he : exec i s = whenPresent (hasSingle s.cfg) s (fpArith fpSingle o s rD rA rB)) :
    FpArithFlow i fpSingle o op s rD rA rB :=
  fpArithFlow_of_exec ho fpSingle_ok (fpSingle_le_width s) (he.trans (whenPresent_true h.single _))

theorem fpArithFlow_double {o : FpOp} {op : FpFormat → Config → Rounding → BitVec 64 → Nat → Nat → FpResult}
    (ho : (o, op) ∈ fpBinary) (h : HasFormat s.cfg fpDouble) {rD rA rB : RegNum}
    (he : exec i s = whenPresent (hasDouble s.cfg) s (fpArith fpDouble o s rD rA rB)) :
    FpArithFlow i fpDouble o op s rD rA rB :=
  fpArithFlow_of_exec ho fpDouble_ok (fpDouble_le_width h.double) (he.trans (whenPresent_true h.double _))

/-! ### Compares -/

/-- The state a compare leaves before it advances: F, and IVF under `FP_CMP_FLAGS` where the operands are unordered. -/
def fpCompared (s : State) (b : Bool) (o : FpOrder) : State :=
  if s.cfg.fpCmpFlags && o == .unordered then { s.setF b with fpcsr := s.fpcsr ||| (flIVF ++ 0#3).setWidth 32 } else s.setF b

theorem fpCompareOp_eq (f : FpFormat) (holds : FpOrder → Bool) (s : State) (rA rB : RegNum) :
    fpCompareOp f holds s rA rB =
      let o := fpOrder f s.cfg (fpOperand f s rA) (fpOperand f s rB)
      finish (fpCompared s (holds o) o) := rfl

theorem fpCompared_frame (s : State) (b : Bool) (o : FpOrder) : Frame [.sr srF, .fpcsr] s (fpCompared s b o) := by
  have hf : Frame [.sr srF, .fpcsr] s (s.setF b) := (Frame.refl _ s).setSrBit srF b (by simp)
  unfold fpCompared
  split
  · exact hf.setFpcsr _ (by simp)
  · exact hf

theorem fpCompared_pc (s : State) (b : Bool) (o : FpOrder) : (fpCompared s b o).pc = s.pc := by
  unfold fpCompared; split <;> rfl

theorem fpCompared_ds (s : State) (b : Bool) (o : FpOrder) : (fpCompared s b o).ds = s.ds := by
  unfold fpCompared; split <;> rfl

theorem fpCompared_flagF (s : State) (b : Bool) (o : FpOrder) : (fpCompared s b o).advance.flagF = b := by
  have hsr : (fpCompared s b o).advance.sr = (s.setF b).sr := by unfold fpCompared; split <;> rfl
  rw [State.flagF, State.srBit_of_sr hsr, State.setF_eq, State.srBit_setSrBit, if_pos ⟨rfl, by decide⟩]

theorem fpCompared_fpcsr_eq (s : State) (b : Bool) (o : FpOrder) (h : ¬ (s.cfg.fpCmpFlags = true ∧ o = .unordered)) :
    (fpCompared s b o).advance.fpcsr = s.fpcsr := by
  unfold fpCompared
  rw [if_neg (by simpa using h)]
  rfl

theorem fpCompared_fpcsr_ivf (s : State) (b : Bool) (o : FpOrder) (h : s.cfg.fpCmpFlags = true ∧ o = .unordered) :
    (fpCompared s b o).advance.fpcsr.toNat = (s.fpcsr.toNat ||| 0x200) := by
  unfold fpCompared
  rw [if_pos (by simpa using h)]
  exact (BitVec.toNat_or ..).trans (by rw [flagBits_toNat]; rfl)

/-- All that an instruction ending in `fpCompareOp` does, in terms of the outcome of `FP.cmp` (R302). -/
theorem fpCompareOp_completes {holds : FpOrder → Bool} {rA rB : RegNum} {o : FpOrder} (he : exec i s = fpCompareOp f holds s rA rB)
    (ho : fpOrder f s.cfg (fpOperand f s rA) (fpOperand f s rB) = o) {post : State → Prop}
    (hpost : ∀ t : State, t.flagF = holds o → (¬ (s.cfg.fpCmpFlags = true ∧ o = .unordered) → t.fpcsr = s.fpcsr) →
      (s.cfg.fpCmpFlags = true ∧ o = .unordered → t.fpcsr.toNat = (s.fpcsr.toNat ||| 0x200)) → post t) :
    Completes i s [.sr srF, .fpcsr] post := by
  rw [fpCompareOp_eq, ho] at he
  exact completes_finish he (fpCompared_frame s _ o) (fpCompared_pc s _ o) (fpCompared_ds s _ o)
    (hpost _ (fpCompared_flagF s _ o) (fpCompared_fpcsr_eq s _ o) (fpCompared_fpcsr_ivf s _ o))

/-- Operands are unordered exactly where one is a NaN. -/
theorem fpCompare_nan (f : FpFormat) (a b : Nat) : fpCompare f a b = .unordered ↔ (fpIsNan f a || fpIsNan f b) = true := by
  unfold fpCompare
  split_ifs with hn <;> simp [hn]

/-- The outcome of comparing two integers. -/
def intOrder (a b : Int) : FpOrder := if a < b then .lt else if b < a then .gt else .eq

/-- On numbers, the default `FP.cmp` compares the ranks. -/
theorem fpCompare_num {a b : Nat} (hn : (fpIsNan f a || fpIsNan f b) = false) :
    fpCompare f a b = intOrder (fpRank f a) (fpRank f b) := by
  unfold fpCompare
  rw [if_neg (by simp [hn])]
  rfl

theorem intOrder_eq_lt (a b : Int) : intOrder a b = .lt ↔ a < b := by unfold intOrder; split_ifs <;> simp [*]
theorem intOrder_eq_gt (a b : Int) : intOrder a b = .gt ↔ b < a := by unfold intOrder; split_ifs <;> simp <;> omega
theorem intOrder_eq_eq (a b : Int) : intOrder a b = .eq ↔ a = b := by unfold intOrder; split_ifs <;> simp <;> omega
theorem intOrder_ne_unordered (a b : Int) : intOrder a b ≠ .unordered := by unfold intOrder; split_ifs <;> simp

/-- The test `holds` of an outcome decides the relation `rel`, and `l` lists the outcomes it holds of. -/
structure DecidesOrder (holds : FpOrder → Bool) (rel : Int → Int → Prop) (l : List FpOrder) : Prop where
  mem : ∀ o, holds o = true ↔ o ∈ l
  rel_iff : ∀ a b, intOrder a b ∈ l ↔ rel a b

theorem decides_eq : DecidesOrder (· == .eq) (fun a b => a = b) [.eq] where
  mem o := by simp
  rel_iff a b := by simp [intOrder_eq_eq]

theorem decides_gt : DecidesOrder (· == .gt) (fun a b => b < a) [.gt] where
  mem o := by simp
  rel_iff a b := by simp [intOrder_eq_gt]

theorem decides_lt : DecidesOrder (· == .lt) (fun a b => a < b) [.lt] where
  mem o := by simp
  rel_iff a b := by simp [intOrder_eq_lt]

theorem decides_ge : DecidesOrder (fun o => o == .gt || o == .eq) (fun a b => b ≤ a) [.gt, .eq] where
  mem o := by simp
  rel_iff a b := by simp [intOrder_eq_gt, intOrder_eq_eq]; omega

theorem decides_le : DecidesOrder (fun o => o == .lt || o == .eq) (fun a b => a ≤ b) [.lt, .eq] where
  mem o := by simp
  rel_iff a b := by simp [intOrder_eq_lt, intOrder_eq_eq]; omega

theorem decides_ne : DecidesOrder (· != .eq) (fun a b => a ≠ b) [.lt, .gt, .unordered] where
  mem o := by cases o <;> decide
  rel_iff a b := by simp [intOrder_eq_lt, intOrder_eq_gt, intOrder_ne_unordered]

/-- What the statement asks of a compare. -/
def FpCompares (i : Instr) (f : FpFormat) (rel : Int → Int → Prop) (onNan : Prop) (l : List FpOrder) (s : State)
    (rA rB : RegNum) : Prop :=
  let a := s.uval rA % 2 ^ f.width
  let b := s.uval rB % 2 ^ f.width
  let nan := fpIsNan f a || fpIsNan f b
  (s.cfg.fp = .ieee →
    Completes i s [.sr srF, .fpcsr] fun t =>
      (nan = true → (t.flagF = true ↔ onNan)) ∧
      (nan = false → (t.flagF = true ↔ rel (fpRank f a) (fpRank f b))) ∧
      (s.cfg.fpCmpFlags = false ∨ nan = false → t.fpcsr = s.fpcsr) ∧
      (s.cfg.fpCmpFlags = true → nan = true → t.fpcsr.toNat = (s.fpcsr.toNat ||| 0x200))) ∧
  (∀ n, s.cfg.fp = .other n →
    let o := Config.fpOrder n f.width (BitVec.ofNat 64 a) (BitVec.ofNat 64 b)
    Completes i s [.sr srF, .fpcsr] fun t =>
      (t.flagF = true ↔ o ∈ l) ∧
      t.fpcsr.toNat = if s.cfg.fpCmpFlags = true ∧ o = .unordered then (s.fpcsr.toNat ||| 0x200) else s.fpcsr.toNat)

theorem fpCompares_of_exec {holds : FpOrder → Bool} {rel : Int → Int → Prop} {onNan : Prop} {l : List FpOrder}
    (h : DecidesOrder holds rel l) (hnan : holds .unordered = true ↔ onNan) {rA rB : RegNum}
    (he : exec i s = fpCompareOp f holds s rA rB) : FpCompares i f rel onNan l s rA rB := by
  refine ⟨fun hi => ?_, fun n hn => ?_⟩
  · refine fpCompareOp_completes he (fpOrder_ieee hi _ _) fun t hF hsame hivf => ⟨fun hn => ?_, fun hnum => ?_, fun hno => ?_, ?_⟩
    · have hun : fpCompare f (fpOperand f s rA) (fpOperand f s rB) = .unordered := (fpCompare_nan f _ _).2 hn
      rw [hF, hun]
      exact hnan
    · rw [hF]
      rw [fpOperand_eq, fpOperand_eq, fpCompare_num hnum, h.mem]
      exact h.rel_iff _ _
    · refine hsame fun ⟨hflags, hun⟩ => ?_
      rw [fpCompare_nan, fpOperand_eq, fpOperand_eq] at hun
      rcases hno with hno | hno
      · exact absurd hflags (by simp [hno])
      · exact absurd hun (by simp [hno])
    · exact fun hflags hn => hivf ⟨hflags, (fpCompare_nan f _ _).2 hn⟩
  · refine fpCompareOp_completes he (fpOrder_other hn _ _) fun t hF hsame hivf => ⟨?_, ?_⟩
    · rw [hF]
      exact h.mem _
    · split
      · exact hivf ‹_›
      · exact congrArg BitVec.toNat (hsame ‹_›)

theorem fpCompares_single {holds : FpOrder → Bool} {rel : Int → Int → Prop} {onNan : Prop} {l : List FpOrder} {rA rB : RegNum}
    (h : DecidesOrder holds rel l) (hfmt : HasFormat s.cfg fpSingle) (hnan : holds .unordered = true ↔ onNan)
    (he : exec i s = whenPresent (hasSingle s.cfg) s (fpCompareOp fpSingle holds s rA rB)) :
    FpCompares i fpSingle rel onNan l s rA rB :=
  fpCompares_of_exec h hnan (he.trans (whenPresent_true hfmt.single _))

theorem fpCompares_double {holds : FpOrder → Bool} {rel : Int → Int → Prop} {onNan : Prop} {l : List FpOrder} {rA rB : RegNum}
    (h : DecidesOrder holds rel l) (hfmt : HasFormat s.cfg fpDouble) (hnan : holds .unordered = true ↔ onNan)
    (he : exec i s = whenPresent (hasDouble s.cfg) s (fpCompareOp fpDouble holds s rA rB)) :
    FpCompares i fpDouble rel onNan l s rA rB :=
  fpCompares_of_exec h hnan (he.trans (whenPresent_true hfmt.double _))

end Sys2Proof.Machine

/-- Settles O50: each instruction ends in `fpArith`, whose data flow is that of its member (`fpArithFlow_of_exec`). -/
theorem floatArithmeticDataFlow : Obligations.FloatArithmeticDataFlow := by
  unfold Obligations.FloatArithmeticDataFlow
  intro s rD rA rB e he hs hd
  have hfmt : HasFormat s.cfg e.2.1 := ⟨hs, hd⟩
  clear hs hd
  simp only [List.mem_cons, List.not_mem_nil, or_false] at he
  rcases he with rfl | rfl | rfl | rfl | rfl | rfl | rfl | rfl | rfl | rfl
  iterate 5 · exact fpArithFlow_single (by simp [fpBinary]) hfmt rfl
  iterate 5 · exact fpArithFlow_double (by simp [fpBinary]) hfmt rfl

/-- Settles O52: each compare ends in `fpCompareOp`, and its test of the outcome decides its relation (`DecidesOrder`). -/
theorem floatCompareResult : Obligations.FloatCompareResult := by
  unfold Obligations.FloatCompareResult
  intro s rA rB e he hs hd
  have hfmt : HasFormat s.cfg e.2.1 := ⟨hs, hd⟩
  clear hs hd
  simp only [List.mem_cons, List.not_mem_nil, or_false] at he
  rcases he with rfl | rfl | rfl | rfl | rfl | rfl | rfl | rfl | rfl | rfl | rfl | rfl
  · exact fpCompares_single decides_eq hfmt (by simp) rfl
  · exact fpCompares_single decides_ge hfmt (by simp) rfl
  · exact fpCompares_single decides_gt hfmt (by simp) rfl
  · exact fpCompares_single decides_le hfmt (by simp) rfl
  · exact fpCompares_single decides_lt hfmt (by simp) rfl
  · exact fpCompares_single decides_ne hfmt (by simp) rfl
  · exact fpCompares_double decides_eq hfmt (by simp) rfl
  · exact fpCompares_double decides_ge hfmt (by simp) rfl
  · exact fpCompares_double decides_gt hfmt (by simp) rfl
  · exact fpCompares_double decides_le hfmt (by simp) rfl
  · exact fpCompares_double decides_lt hfmt (by simp) rfl
  · exact fpCompares_double decides_ne hfmt (by simp) rfl

end

section
/-! PROOFS. Rounding (R300): the patterns of a format in the order of their values, the number that `fpRound` delivers, and
the integer that `roundQuotient` does. -/

namespace Sys2Proof.Machine

variable {f : FpFormat}

/-! ### Patterns and their magnitudes -/

/-- The exponent field of a pattern and its fraction do not depend on its sign. -/
theorem fpExp_pattern (h : f.Ok) (neg : Bool) {m : Nat} (hm : m < 2 ^ (f.width - 1)) :
    fpExp f (fpPattern f neg m) = m / 2 ^ f.frac := by
  have hk : 0 < 2 ^ f.frac := Nat.two_pow_pos _
  have hlt : m / 2 ^ f.frac < f.emax + 1 := (Nat.div_lt_iff_lt_mul hk).2 (h.width_eq ▸ hm)
  unfold fpExp fpPattern
  rw [h.width_eq]
  cases neg
  · rw [if_neg (by simp), Nat.zero_add, Nat.mod_eq_of_lt hlt]
  · rw [if_pos rfl, Nat.add_comm, Nat.add_mul_div_right _ _ hk, Nat.add_mod_right, Nat.mod_eq_of_lt hlt]

theorem fpFrac_pattern (h : f.Ok) (neg : Bool) (m : Nat) : fpFrac f (fpPattern f neg m) = m % 2 ^ f.frac := by
  unfold fpFrac fpPattern
  rw [h.width_eq]
  cases neg
  · rw [if_neg (by simp), Nat.zero_add]
  · rw [if_pos rfl, Nat.add_comm, Nat.add_mul_mod_self_right]

theorem fpNeg_pattern (neg : Bool) {m : Nat} (hm : m < 2 ^ (f.width - 1)) : fpNeg f (fpPattern f neg m) = neg := by
  have hp : 0 < 2 ^ (f.width - 1) := Nat.two_pow_pos _
  unfold fpNeg fpPattern
  cases neg
  · rw [if_neg (by simp), Nat.zero_add, Nat.div_eq_of_lt hm]; rfl
  · rw [if_pos rfl, Nat.add_div_left _ hp, Nat.div_eq_of_lt hm]; rfl

/-- Every pattern of a format is its sign and the bits of its magnitude. -/
theorem fpPattern_self (h : f.Ok) {p : Nat} (hp : p < 2 ^ f.width) : fpPattern f (fpNeg f p) (p % 2 ^ (f.width - 1)) = p := by
  have hpos : 0 < 2 ^ (f.width - 1) := Nat.two_pow_pos _
  have hq : p / 2 ^ (f.width - 1) < 2 := (Nat.div_lt_iff_lt_mul hpos).2 (h.pow_width ▸ hp)
  have hdiv := Nat.div_add_mod p (2 ^ (f.width - 1))
  unfold fpPattern fpNeg
  generalize p / 2 ^ (f.width - 1) = q at *
  obtain rfl | rfl : q = 0 ∨ q = 1 := by omega
  · simpa using hdiv
  · simpa using hdiv

/-- The magnitude of the pattern with the magnitude bits `m`, in units. -/
def bitsMag (f : FpFormat) (m : Nat) : Nat :=
  if m / 2 ^ f.frac = 0 then m % 2 ^ f.frac else (m % 2 ^ f.frac + 2 ^ f.frac) * 2 ^ (m / 2 ^ f.frac - 1)

theorem fpMag_pattern (h : f.Ok) (neg : Bool) {m : Nat} (hm : m < 2 ^ (f.width - 1)) :
    fpMag f (fpPattern f neg m) = bitsMag f m := by
  unfold fpMag bitsMag
  rw [fpExp_pattern h neg hm, fpFrac_pattern h]

theorem fpVal_pattern (h : f.Ok) (neg : Bool) {m : Nat} (hm : m < 2 ^ (f.width - 1)) :
    fpVal f (fpPattern f neg m) = if neg then -(bitsMag f m : Int) else bitsMag f m := by
  unfold fpVal
  rw [fpNeg_pattern neg hm, fpMag_pattern h neg hm]

/-- Magnitude bits that are a shift `d` and a significand `q`, whole or just carried into the next binade. -/
theorem bitsMag_of_shift {d q : Nat} (hq : q ≤ 2 * 2 ^ f.frac) (hd : d = 0 ∨ 2 ^ f.frac ≤ q) :
    bitsMag f (d * 2 ^ f.frac + q) = q * 2 ^ d := by
  have hk : 0 < 2 ^ f.frac := Nat.two_pow_pos _
  unfold bitsMag
  generalize 2 ^ f.frac = k at *
  have hdiv : (d * k + q) / k = d + q / k := by rw [Nat.add_comm, Nat.add_mul_div_right _ _ hk, Nat.add_comm]
  have hmod : (d * k + q) % k = q % k := by rw [Nat.add_comm, Nat.add_mul_mod_self_right]
  rw [hdiv, hmod]
  obtain hlt | ⟨r, rfl, hr⟩ | rfl : q < k ∨ (∃ r, q = r + k ∧ r < k) ∨ q = 2 * k := by
    by_cases h1 : q < k
    · exact .inl h1
    · by_cases h2 : q = 2 * k
      · exact .inr (.inr h2)
      · exact .inr (.inl ⟨q - k, by omega, by omega⟩)
  · obtain rfl : d = 0 := by omega
    simp [Nat.div_eq_of_lt hlt, Nat.mod_eq_of_lt hlt]
  · rw [Nat.add_div_right _ hk, Nat.div_eq_of_lt hr, Nat.add_mod_right, Nat.mod_eq_of_lt hr]
    simp
  · rw [Nat.mul_div_cancel _ hk, Nat.mul_mod_left, if_neg (by omega), Nat.add_sub_assoc (by omega), pow_add]
    ring

/-- Magnitudes rise with the bits. -/
theorem bitsMag_succ (f : FpFormat) (m : Nat) : bitsMag f m < bitsMag f (m + 1) := by
  have hk : 0 < 2 ^ f.frac := Nat.two_pow_pos _
  have hdm := Nat.div_add_mod' m (2 ^ f.frac)
  have hmod := Nat.mod_lt m hk
  obtain ⟨d, q, rfl, hq, hd⟩ : ∃ d q, m = d * 2 ^ f.frac + q ∧ q < 2 * 2 ^ f.frac ∧ (d = 0 ∨ 2 ^ f.frac ≤ q) := by
    obtain h0 | ⟨e, he⟩ : m / 2 ^ f.frac = 0 ∨ ∃ e, m / 2 ^ f.frac = e + 1 := by
      cases m / 2 ^ f.frac with
      | zero => exact .inl rfl
      | succ e => exact .inr ⟨e, rfl⟩
    · rw [h0, Nat.zero_mul, Nat.zero_add] at hdm
      exact ⟨0, m, by omega, by omega, .inl rfl⟩
    · rw [he, Nat.add_mul, Nat.one_mul] at hdm
      exact ⟨e, m % 2 ^ f.frac + 2 ^ f.frac, by omega, by omega, .inr (by omega)⟩
  rw [Nat.add_assoc, bitsMag_of_shift hq.le hd, bitsMag_of_shift hq (by omega)]
  exact Nat.mul_lt_mul_of_pos_right (Nat.lt_succ_self q) (Nat.two_pow_pos d)

theorem bitsMag_strictMono (f : FpFormat) : StrictMono (bitsMag f) := strictMono_nat_of_lt_succ (bitsMag_succ f)

/-! ### The two neighbours of a quotient -/

/-- The whole units of the significand of `num / den`, after the shift. -/
def fpTrunc (f : FpFormat) (num den : Nat) : Nat := num / (den * 2 ^ fpShift f (num / den))

/-- The significand is within the precision, and uses all of it where anything is dropped. -/
theorem fpTrunc_bounds (f : FpFormat) (num den : Nat) :
    fpTrunc f num den < 2 * 2 ^ f.frac ∧ (fpShift f (num / den) = 0 ∨ 2 ^ f.frac ≤ fpTrunc f num den) := by
  unfold fpTrunc
  rw [← Nat.div_div_eq_div_mul]
  generalize num / den = x
  unfold fpShift
  split
  · rename_i hx
    rw [pow_zero, Nat.div_one, ← pow_succ']
    exact ⟨hx, .inl rfl⟩
  · rename_i hx
    have hx0 : x ≠ 0 := by have := Nat.two_pow_pos (f.frac + 1); omega
    have hlog : f.frac + 1 ≤ Nat.log2 x := (Nat.le_log2 hx0).2 (not_lt.1 hx)
    have hlo : 2 ^ Nat.log2 x ≤ x := Nat.log2_self_le hx0
    have hhi : x < 2 ^ (Nat.log2 x + 1) := Nat.lt_log2_self
    have hpos : 0 < 2 ^ (Nat.log2 x - f.frac) := Nat.two_pow_pos _
    refine ⟨(Nat.div_lt_iff_lt_mul hpos).2 ?_, .inr ((Nat.le_div_iff_mul_le hpos).2 ?_)⟩
    · rw [← pow_succ', ← pow_add, show f.frac + 1 + (Nat.log2 x - f.frac) = Nat.log2 x + 1 by omega]
      exact hhi
    · rw [← pow_add, show f.frac + (Nat.log2 x - f.frac) = Nat.log2 x by omega]
      exact hlo

/-- The magnitude bits of `num / den` truncated, and whether they are rounded up. -/
def truncBits (f : FpFormat) (num den : Nat) : Nat := fpShift f (num / den) * 2 ^ f.frac + fpTrunc f num den
def stepsUp (f : FpFormat) (rm : Rounding) (neg : Bool) (num den : Nat) : Bool :=
  roundsUp rm neg (fpTrunc f num den) (num % (den * 2 ^ fpShift f (num / den))) (den * 2 ^ fpShift f (num / den))

theorem roundedMag_eq (f : FpFormat) (rm : Rounding) (neg : Bool) (num den : Nat) :
    roundedMag f rm neg num den = truncBits f num den + (stepsUp f rm neg num den).toNat := by
  unfold roundedMag roundQuotient truncBits stepsUp fpTrunc
  rw [Nat.add_assoc]

/-- The magnitude of the truncated bits, and the distance to the next one. -/
theorem truncBits_mag (f : FpFormat) (num den : Nat) :
    bitsMag f (truncBits f num den) = fpTrunc f num den * 2 ^ fpShift f (num / den) ∧
    bitsMag f (truncBits f num den + 1) = (fpTrunc f num den + 1) * 2 ^ fpShift f (num / den) := by
  obtain ⟨hlt, hfull⟩ := fpTrunc_bounds f num den
  unfold truncBits
  rw [Nat.add_assoc]
  exact ⟨bitsMag_of_shift hlt.le hfull, bitsMag_of_shift hlt (by omega)⟩

/-- `num / den` lies between neighbours: with `A` and `B` their magnitudes times `den`, the remainder that is rounded on is
the distance from `A`, and the divisor the distance between them. -/
theorem truncBits_brackets (f : FpFormat) (num : Nat) {den : Nat} (hden : 0 < den) :
    bitsMag f (truncBits f num den) * den + num % (den * 2 ^ fpShift f (num / den)) = num ∧
    bitsMag f (truncBits f num den + 1) * den = bitsMag f (truncBits f num den) * den + den * 2 ^ fpShift f (num / den) ∧
    num < bitsMag f (truncBits f num den + 1) * den := by
  obtain ⟨hlo, hhi⟩ := truncBits_mag f num den
  have hmod := Nat.mod_lt num (Nat.mul_pos hden (Nat.two_pow_pos (fpShift f (num / den))))
  have hdm := Nat.div_add_mod num (den * 2 ^ fpShift f (num / den))
  have hA : bitsMag f (truncBits f num den) * den = den * 2 ^ fpShift f (num / den) * fpTrunc f num den := by rw [hlo]; ring
  have hB : bitsMag f (truncBits f num den + 1) * den = den * 2 ^ fpShift f (num / den) * fpTrunc f num den + den * 2 ^ fpShift f (num / den) := by
    rw [hhi]; ring
  rw [hA, hB]
  unfold fpTrunc
  omega

/-! ### Correct rounding -/

/-- `r` is the finite pattern that rounding makes of `num / den`: `lo` and `hi` are the magnitudes next to it, times `den`,
no finite pattern lies between them, and `r` is the upper one where `above` says so, with the sign of `num`. -/
structure TakesNeighbour (f : FpFormat) (num : Int) (den r : Nat) (above : Bool) (lo hi : Nat) : Prop where
  finite : FpFinite f r
  le : lo ≤ num.natAbs
  lt : num.natAbs < hi
  gap : ∀ p, FpFinite f p → (fpVal f p * den).natAbs ≤ lo ∨ hi ≤ (fpVal f p * den).natAbs
  val_neg : num < 0 → fpVal f r * den = if above then -(hi : Int) else -(lo : Int)
  val_nonneg : 0 ≤ num → fpVal f r * den = if above then (hi : Int) else (lo : Int)

section
variable {num : Int} {den r lo hi : Nat} {above : Bool}

theorem TakesNeighbour.nearest (t : TakesNeighbour f num den r above lo hi) (hden : 0 < den)
    (hup : above = true → hi - num.natAbs < num.natAbs - lo ∨ hi - num.natAbs = num.natAbs - lo ∧ r % 2 = 0)
    (hdown : above = false → num.natAbs - lo < hi - num.natAbs ∨ hi - num.natAbs = num.natAbs - lo ∧ r % 2 = 0) :
    RoundsTo f .nearest num den r := by
  refine ⟨t.finite, fun p hp => ?_⟩
  have hgap := t.gap p hp
  have hle := t.le
  have hlt := t.lt
  have hneg := t.val_neg
  have hpos := t.val_nonneg
  have hne : fpVal f p ≠ fpVal f r → fpVal f p * den ≠ fpVal f r * den := fun hd he =>
    hd (mul_right_cancel₀ (by exact_mod_cast hden.ne') he)
  generalize fpVal f r * (den : Int) = v at *
  generalize fpVal f p * (den : Int) = w at *
  cases above <;> simp only [if_true, if_false, Bool.false_eq_true] at hneg hpos <;> simp only [forall_const, reduceCtorEq, false_implies] at hup hdown
  · constructor <;> omega
  · constructor <;> omega

theorem TakesNeighbour.zero (t : TakesNeighbour f num den r false lo hi) (hden : 0 < den) : RoundsTo f .zero num den r := by
  have hmul : ∀ x : Int, x.natAbs * den = (x * den).natAbs := fun x => by rw [Int.natAbs_mul, Int.natAbs_natCast]
  have hle := t.le
  have hlt := t.lt
  have hneg := t.val_neg
  have hpos := t.val_nonneg
  simp only [if_false, Bool.false_eq_true] at hneg hpos
  refine ⟨t.finite, ?_, ?_, fun p hp hpn => ?_⟩
  · rw [hmul]; omega
  · have hd : (0 : Int) < den := by exact_mod_cast hden
    rcases lt_or_ge num 0 with hn | hn
    · exact mul_nonneg_of_nonpos_of_nonpos (nonpos_of_mul_nonpos_left (by rw [hneg hn]; omega) hd) hn.le
    · exact mul_nonneg (nonneg_of_mul_nonneg_left (by rw [hpos hn]; omega) hd) hn
  · have hgap := t.gap p hp
    rw [hmul] at hpn
    refine Nat.le_of_mul_le_mul_right ?_ hden
    rw [hmul, hmul]
    omega

theorem TakesNeighbour.up (t : TakesNeighbour f num den r above lo hi) (hden : 0 < den)
    (hup : above = true ↔ 0 ≤ num ∧ num.natAbs ≠ lo) : RoundsTo f .up num den r := by
  have hle := t.le
  have hlt := t.lt
  have hneg := t.val_neg
  have hpos := t.val_nonneg
  have hd : (0 : Int) < den := by exact_mod_cast hden
  refine ⟨t.finite, ?_, fun p hp hpn => le_of_mul_le_mul_right ?_ hd⟩
  · cases above <;> simp at hneg hpos hup <;> omega
  · have hgap := t.gap p hp
    cases above <;> simp at hneg hpos hup <;> omega

theorem TakesNeighbour.down (t : TakesNeighbour f num den r above lo hi) (hden : 0 < den)
    (hup : above = true ↔ num < 0 ∧ num.natAbs ≠ lo) : RoundsTo f .down num den r := by
  have hle := t.le
  have hlt := t.lt
  have hneg := t.val_neg
  have hpos := t.val_nonneg
  have hd : (0 : Int) < den := by exact_mod_cast hden
  refine ⟨t.finite, ?_, fun p hp hpn => le_of_mul_le_mul_right ?_ hd⟩
  · cases above <;> simp at hneg hpos hup <;> omega
  · have hgap := t.gap p hp
    cases above <;> simp at hneg hpos hup <;> omega

end

/-- Finite patterns are those with magnitude bits below those of infinity. -/
theorem fpFinite_pattern (h : f.Ok) (neg : Bool) {m : Nat} (hm : m < fpInfMag f) : FpFinite f (fpPattern f neg m) := by
  have hlt : m < 2 ^ (f.width - 1) := hm.trans h.infMag_lt
  refine ⟨fpPattern_lt h neg hlt, ?_⟩
  rw [fpExp_pattern h neg hlt]
  exact (Nat.div_lt_iff_lt_mul (Nat.two_pow_pos _)).2 hm

theorem fpVal_natAbs (h : f.Ok) {p : Nat} (hp : FpFinite f p) : (fpVal f p).natAbs = bitsMag f (p % 2 ^ (f.width - 1)) := by
  rw [← fpPattern_self h hp.1, fpVal_pattern h _ (Nat.mod_lt _ (Nat.two_pow_pos _)), fpPattern_self h hp.1]
  split <;> simp

/-- No finite pattern lies between neighbours. -/
theorem fpVal_gap (h : f.Ok) (m den : Nat) {p : Nat} (hp : FpFinite f p) :
    (fpVal f p * den).natAbs ≤ bitsMag f m * den ∨ bitsMag f (m + 1) * den ≤ (fpVal f p * den).natAbs := by
  rw [Int.natAbs_mul, Int.natAbs_natCast, fpVal_natAbs h hp]
  rcases Nat.lt_or_ge m (p % 2 ^ (f.width - 1)) with hm | hm
  · exact .inr (Nat.mul_le_mul_right _ ((bitsMag_strictMono f).monotone hm))
  · exact .inl (Nat.mul_le_mul_right _ ((bitsMag_strictMono f).monotone hm))

theorem even_two_pow_frac (h : f.Ok) : 2 ^ f.frac % 2 = 0 := by rw [h.pow_frac, Nat.mul_mod_right]

theorem fpPattern_parity (h : f.Ok) (neg : Bool) (m : Nat) : fpPattern f neg m % 2 = m % 2 := by
  have he : 2 ^ (f.width - 1) % 2 = 0 := by rw [h.width_eq, Nat.mul_mod, even_two_pow_frac h, Nat.mul_zero, Nat.zero_mod]
  unfold fpPattern
  split <;> omega

theorem truncBits_parity (h : f.Ok) (num den : Nat) : truncBits f num den % 2 = fpTrunc f num den % 2 := by
  have he : fpShift f (num / den) * 2 ^ f.frac % 2 = 0 := by rw [Nat.mul_mod, even_two_pow_frac h, Nat.mul_zero, Nat.zero_mod]
  unfold truncBits
  omega

/-- The finite pattern of the magnitude bits that `fpRound` computes. -/
def roundedBits (f : FpFormat) (rm : Rounding) (num : Int) (den : Nat) : Nat :=
  fpPattern f (decide (num < 0)) (roundedMag f rm (decide (num < 0)) num.natAbs den)

theorem takesNeighbour_roundedBits (h : f.Ok) (rm : Rounding) (num : Int) {den : Nat} (hden : 0 < den)
    (hfin : roundedMag f rm (decide (num < 0)) num.natAbs den < fpInfMag f) :
    TakesNeighbour f num den (roundedBits f rm num den) (stepsUp f rm (decide (num < 0)) num.natAbs den)
      (bitsMag f (truncBits f num.natAbs den) * den) (bitsMag f (truncBits f num.natAbs den + 1) * den) := by
  obtain ⟨hlo, -, hlt⟩ := truncBits_brackets f num.natAbs hden
  have hval : fpVal f (roundedBits f rm num den) * den =
      if num < 0 then -((bitsMag f (roundedMag f rm (decide (num < 0)) num.natAbs den) * den : Nat) : Int)
      else (bitsMag f (roundedMag f rm (decide (num < 0)) num.natAbs den) * den : Nat) := by
    rw [roundedBits, fpVal_pattern h _ (hfin.trans h.infMag_lt)]
    by_cases hn : num < 0 <;> simp [hn]
  refine ⟨fpFinite_pattern h _ hfin, by omega, hlt, fun p hp => fpVal_gap h _ den hp, fun hn => ?_, fun hn => ?_⟩
  · rw [hval, if_pos hn, roundedMag_eq]
    generalize stepsUp f rm (decide (num < 0)) num.natAbs den = above
    cases above <;> rfl
  · rw [hval, if_neg (by omega), roundedMag_eq]
    generalize stepsUp f rm (decide (num < 0)) num.natAbs den = above
    cases above <;> rfl

/-- The rounded pattern is correctly rounded, in every mode (R300, IEEE 754). -/
theorem roundsTo_roundedBits (h : f.Ok) (rm : Rounding) (num : Int) {den : Nat} (hden : 0 < den)
    (hfin : roundedMag f rm (decide (num < 0)) num.natAbs den < fpInfMag f) :
    RoundsTo f rm num den (roundedBits f rm num den) := by
  have ht := takesNeighbour_roundedBits h rm num hden hfin
  obtain ⟨hlo, hhi, hlt⟩ := truncBits_brackets f num.natAbs hden
  have hpar : roundedBits f rm num den % 2 =
      (fpTrunc f num.natAbs den + (stepsUp f rm (decide (num < 0)) num.natAbs den).toNat) % 2 := by
    have := truncBits_parity h num.natAbs den
    rw [roundedBits, fpPattern_parity h, roundedMag_eq]
    omega
  cases rm
  case nearest =>
    refine ht.nearest hden (fun hu => ?_) (fun hu => ?_)
    · rw [hu] at hpar
      simp only [stepsUp, roundsUp, Bool.or_eq_true, Bool.and_eq_true, decide_eq_true_eq, beq_iff_eq] at hu
      simp only [Bool.toNat_true] at hpar
      omega
    · rw [hu] at hpar
      simp only [stepsUp, roundsUp, Bool.or_eq_false_iff, Bool.and_eq_false_iff, decide_eq_false_iff_not, beq_eq_false_iff_ne] at hu
      simp only [Bool.toNat_false] at hpar
      omega
  case zero => exact TakesNeighbour.zero ht hden
  case up =>
    refine ht.up hden ?_
    simp only [stepsUp, roundsUp, Bool.and_eq_true, Bool.not_eq_true', decide_eq_false_iff_not, bne_iff_ne]
    omega
  case down =>
    refine ht.down hden ?_
    simp only [stepsUp, roundsUp, Bool.and_eq_true, decide_eq_true_eq, bne_iff_ne]
    omega

/-- The rounded value is inexact exactly where something is dropped. -/
theorem isInexact_iff (h : f.Ok) (rm : Rounding) (num : Int) {den : Nat} (hden : 0 < den)
    (hfin : roundedMag f rm (decide (num < 0)) num.natAbs den < fpInfMag f) :
    isInexact f num.natAbs den = true ↔ fpVal f (roundedBits f rm num den) * den ≠ num := by
  have ht := takesNeighbour_roundedBits h rm num hden hfin
  obtain ⟨hlo, hhi, hlt⟩ := truncBits_brackets f num.natAbs hden
  have hneg := ht.val_neg
  have hpos := ht.val_nonneg
  have hexact : num.natAbs % (den * 2 ^ fpShift f (num.natAbs / den)) = 0 →
      stepsUp f rm (decide (num < 0)) num.natAbs den = false := fun h0 => by
    have hd : 0 < den * 2 ^ fpShift f (num.natAbs / den) := Nat.mul_pos hden (Nat.two_pow_pos _)
    unfold stepsUp
    rw [h0]
    cases rm <;> simp [roundsUp]; omega
  unfold isInexact
  rw [bne_iff_ne, not_iff_not]
  generalize stepsUp f rm (decide (num < 0)) num.natAbs den = above at *
  cases above <;> simp only [if_true, if_false, Bool.false_eq_true, reduceCtorEq, imp_false] at hneg hpos hexact <;> omega

/-! ### Rounding to an integer -/

/-- A magnitude with a sign. -/
def signed (neg : Bool) (n : Nat) : Int := if neg then -(n : Int) else n

theorem fpVal_eq_signed (f : FpFormat) (x : Nat) : fpVal f x = signed (fpNeg f x) (fpMag f x) := rfl

/-- Distinct integers are at least a whole divisor apart once multiplied by it. -/
theorem mul_add_le_mul_of_lt {a b : Int} (den : Nat) (h : a < b) : a * den + den ≤ b * den := by
  have : (a + 1) * (den : Int) ≤ b * den := mul_le_mul_of_nonneg_right h (by omega)
  linarith [add_mul a 1 (den : Int)]

/-- Truncation is the one integer that rounds toward zero. -/
theorem roundsToInt_zero_unique {neg : Bool} {n den : Nat} {j : Int} (hj : RoundsToInt .zero (signed neg n) den j) :
    j = signed neg (n / den) := by
  obtain ⟨hle, hlt, hsign⟩ := hj
  have habs : (signed neg n).natAbs = n := by cases neg <;> simp [signed]
  rw [habs] at hle hlt
  have hq : n / den = j.natAbs := Nat.div_eq_of_lt_le hle hlt
  have hn : j.natAbs ≠ 0 → 0 < n := fun h0 => by
    have hden : 0 < den := Nat.pos_of_mul_pos_left (lt_of_le_of_lt (Nat.zero_le n) hlt)
    exact lt_of_lt_of_le (Nat.mul_pos (Nat.pos_of_ne_zero h0) hden) hle
  rw [hq]
  cases neg
  · have hj0 : 0 ≤ j := by
      by_contra hneg
      have hpos : (0 : Int) < n := by exact_mod_cast hn (by omega)
      exact absurd hsign (not_le.2 (mul_neg_of_neg_of_pos (not_le.1 hneg) hpos))
    simp only [signed, Bool.false_eq_true, if_false]; omega
  · have hj0 : j ≤ 0 := by
      by_contra hpos'
      have hpos : (0 : Int) < n := by exact_mod_cast hn (by omega)
      exact absurd hsign (not_le.2 (mul_neg_of_pos_of_neg (not_le.1 hpos') (by simp only [signed, if_true]; omega)))
    simp only [signed, if_true]; omega

/-- `roundQuotient` gives the one integer that a quotient rounds to. -/
theorem roundsToInt_unique {rm : Rounding} {neg : Bool} {n den : Nat} {j : Int} (hden : 0 < den)
    (hj : RoundsToInt rm (signed neg n) den j) : j = signed neg (roundQuotient rm neg n den) := by
  have hdm : n / den * den + n % den = n := Nat.div_add_mod' n den
  have hr : n % den < den := Nat.mod_lt n hden
  obtain ⟨up, hup⟩ : ∃ up, roundsUp rm neg (n / den) (n % den) den = up := ⟨_, rfl⟩
  have hi : signed neg (roundQuotient rm neg n den) * den =
      signed neg (n / den * den + if up then den else 0) := by
    rw [roundQuotient, hup]
    cases neg <;> cases up <;> simp [signed] <;> ring
  have hpar : (signed neg (roundQuotient rm neg n den)) % 2 = (n / den + up.toNat : Nat) % 2 := by
    rw [roundQuotient, hup]
    cases neg
    · rfl
    · simp only [signed, if_true]
      omega
  cases rm
  case zero =>
    rw [roundsToInt_zero_unique hj, roundQuotient, hup]
    have : up = false := hup.symm
    rw [this]; rfl
  all_goals
    simp only [RoundsToInt, sub_mul, add_mul, one_mul] at hj
    generalize signed neg (roundQuotient _ neg n den) = i at *
    have h1 : j < i → j * den + den ≤ i * den := mul_add_le_mul_of_lt den
    have h2 : i < j → i * den + den ≤ j * den := mul_add_le_mul_of_lt den
    have h3 : j + 1 < i → (j + 1) * den + den ≤ i * den := mul_add_le_mul_of_lt den
    have h4 : i + 1 < j → (i + 1) * den + den ≤ j * den := mul_add_le_mul_of_lt den
    simp only [add_mul, one_mul] at h3 h4
    generalize n / den = q at *
    generalize n % den = r at *
    generalize hQ : q * den = Q at *
    generalize j * (den : Int) = J at *
    generalize i * (den : Int) = I at *
  case nearest =>
    cases neg <;> cases up <;> simp [signed, roundsUp] at hj hi hup hpar <;> omega
  case up =>
    cases neg <;> cases up <;> simp [signed, roundsUp] at hj hi hup <;> omega
  case down =>
    cases neg <;> cases up <;> simp [signed, roundsUp] at hj hi hup <;> omega

/-- Nothing is dropped exactly where the rounded integer is the quotient. -/
theorem roundQuotient_exact_iff (rm : Rounding) (neg : Bool) (n : Nat) {den : Nat} (hden : 0 < den) :
    n % den = 0 ↔ signed neg n = signed neg (roundQuotient rm neg n den) * den := by
  have hs : signed neg (roundQuotient rm neg n den) * den = signed neg (roundQuotient rm neg n den * den) := by
    cases neg <;> simp [signed]
  have hinj : ∀ a b : Nat, signed neg a = signed neg b ↔ a = b := fun a b => by cases neg <;> simp [signed]
  rw [hs, hinj]
  constructor
  · intro h0
    have hup : roundsUp rm neg (n / den) (n % den) den = false := by
      rw [h0]; cases rm <;> simp [roundsUp]; omega
    rw [roundQuotient, hup, Bool.toNat_false, Nat.add_zero, Nat.div_mul_cancel (Nat.dvd_of_mod_eq_zero h0)]
  · intro h
    rw [h, Nat.mul_mod_left]

end Sys2Proof.Machine
end

section
/-! PROOFS. The conversions between integers and floating-point numbers (O51). -/

open Sys2Proof Sys2Proof.Machine

namespace Sys2Proof.Machine

variable {f : FpFormat} {s : State} {i : Instr}

/-! ### An integer to a number -/

/-- What the conversion of an integer needs of a format: its exponents reach beyond every integer of its width, and the
number 1 is not below the least normal number. -/
structure FpFormat.HoldsInts (f : FpFormat) : Prop where
  bias_pos : 0 < f.bias
  reach : f.width + f.bias < f.emax

theorem fpSingle_holdsInts : fpSingle.HoldsInts := ⟨by decide, by decide⟩
theorem fpDouble_holdsInts : fpDouble.HoldsInts := ⟨by decide, by decide⟩

/-- Below the magnitude bits of infinity, `fpRound` delivers the rounded pattern, with IXF, and UNF where it is tiny. -/
theorem fpRound_of_lt {ta : Bool} {rm : Rounding} {num : Int} {den : Nat}
    (hfin : roundedMag f rm (decide (num < 0)) num.natAbs den < fpInfMag f) :
    fpRound f ta rm (decide (num < 0)) num.natAbs den =
      ⟨roundedBits f rm num den,
        flagIf (isInexact f num.natAbs den) flIXF |||
          flagIf (isInexact f num.natAbs den && isTiny f ta rm (decide (num < 0)) num.natAbs den) flUNF, false⟩ := by
  unfold fpRound
  dsimp only
  rw [if_neg (by omega)]
  rfl

theorem fpShift_le {n x : Nat} (hx : x ≤ 2 ^ n) : fpShift f x ≤ n - f.frac := by
  unfold fpShift
  split
  · exact Nat.zero_le _
  · rename_i hbig
    have hx0 : x ≠ 0 := by have := Nat.two_pow_pos (f.frac + 1); omega
    have hlog : Nat.log2 x < n + 1 := (Nat.log2_lt hx0).2 (lt_of_le_of_lt hx (Nat.pow_lt_pow_right (by norm_num) (Nat.lt_succ_self n)))
    omega

theorem roundedMag_le (rm : Rounding) (neg : Bool) (num den : Nat) :
    roundedMag f rm neg num den ≤ (fpShift f (num / den) + 2) * 2 ^ f.frac := by
  obtain ⟨hlt, -⟩ := fpTrunc_bounds f num den
  have hup := Bool.toNat_le (stepsUp f rm neg num den)
  rw [roundedMag_eq, truncBits, Nat.add_mul]
  omega

/-- An integer of the width of the format, in units. -/
theorem roundedMag_int_lt (h : f.Ok) (hb : f.HoldsInts) (rm : Rounding) (neg : Bool) {n : Nat} (hn : n ≤ 2 ^ (f.width - 1)) :
    roundedMag f rm neg (n * 2 ^ f.unit) 1 < fpInfMag f := by
  have hwidth := h.width_pos
  have hbias := hb.bias_pos
  have hreach := hb.reach
  have hsize : n * 2 ^ f.unit / 1 ≤ 2 ^ (f.width - 1 + f.unit) := by
    rw [Nat.div_one, pow_add]; exact Nat.mul_le_mul_right _ hn
  have hshift := fpShift_le (f := f) hsize
  have hunit : f.unit = f.bias - 1 + f.frac := rfl
  refine lt_of_le_of_lt (roundedMag_le rm neg _ _) ?_
  exact Nat.mul_lt_mul_of_pos_right (by omega) (Nat.two_pow_pos _)

/-- A value of at least one unit is not rounded to zero. -/
theorem roundedMag_pos (rm : Rounding) (neg : Bool) {num den : Nat} (h : 0 < num / den) : 0 < roundedMag f rm neg num den := by
  obtain ⟨-, hfull⟩ := fpTrunc_bounds f num den
  have hpos : 0 < fpTrunc f num den := by
    rcases hfull with h0 | hk
    · rwa [fpTrunc, h0, pow_zero, Nat.mul_one]
    · exact lt_of_lt_of_le (Nat.two_pow_pos _) hk
  rw [roundedMag_eq, truncBits]
  omega

/-- A finite pattern that is no zero has no class flag. -/
theorem classFlags_finite (h : f.Ok) (neg : Bool) {m : Nat} (hm : m < fpInfMag f) (h0 : 0 < m) :
    classFlags f (fpPattern f neg m) = 0#9 := by
  have hexp : fpExp f (fpPattern f neg m) ≠ f.emax := (fpFinite_pattern h neg hm).2.ne
  have hz : fpIsZero f (fpPattern f neg m) = false := by
    have hdm := Nat.div_add_mod m (2 ^ f.frac)
    rw [fpIsZero, fpExp_pattern h neg (hm.trans h.infMag_lt), fpFrac_pattern h]
    by_contra hc
    simp only [Bool.not_eq_false, Bool.and_eq_true, beq_iff_eq] at hc
    obtain ⟨hdiv, hmod⟩ := hc
    rw [hdiv, hmod] at hdm
    omega
  have hnan : fpIsNan f (fpPattern f neg m) = false := by simp [fpIsNan, hexp]
  have hinf : fpIsInf f (fpPattern f neg m) = false := by simp [fpIsInf, hexp]
  simp [classFlags, fpIsSnan, hz, hnan, hinf, flagIf]

theorem classFlags_zero (h : f.Ok) : classFlags f 0 = flZF := by
  have hemax : 0 ≠ f.emax := by have := h.emax_pos; omega
  simp [classFlags, fpIsSnan, fpIsNan, fpIsInf, fpIsZero, fpExp, fpFrac, hemax, flagIf]

theorem fpVal_zero (f : FpFormat) : fpVal f 0 = 0 := by
  simp [fpVal, fpNeg, fpMag, fpExp, fpFrac]

/-- The flags of a converted integer `n`, with the pattern `v` (R311). -/
def itofFlags (f : FpFormat) (c : Config) (n : Int) (v : Nat) : BitVec 9 :=
  flagIf (decide (fpVal f v ≠ n * 2 ^ f.unit)) flIXF ||| flagIf (c.fpClassFlags && decide (n = 0)) flZF

theorem fpOfInt_zero (h : f.Ok) (c : Config) (rm : Rounding) :
    withClass f c (fpOfInt f c rm 0) = ⟨0, itofFlags f c 0 0, false⟩ := by
  unfold itofFlags
  rw [fpVal_zero f]
  cases hc : c.fpClassFlags <;> simp [withClass, fpOfInt, fpExact, hc, flagIf, classFlags_zero h]

/-- An integer that is not zero is rounded; nothing is tiny, and nothing overflows. -/
theorem fpOfInt_ne_zero (h : f.Ok) (hb : f.HoldsInts) (c : Config) (rm : Rounding) {n : Int} (h0 : n ≠ 0)
    (hn : n.natAbs ≤ 2 ^ (f.width - 1)) :
    ∃ v, RoundsTo f rm (n * 2 ^ f.unit) 1 v ∧ withClass f c (fpOfInt f c rm n) = ⟨v, itofFlags f c n v, false⟩ := by
  have habs : (n * 2 ^ f.unit).natAbs = n.natAbs * 2 ^ f.unit := by rw [Int.natAbs_mul, Int.natAbs_pow]; rfl
  have hneg : decide (n < 0) = decide (n * 2 ^ f.unit < 0) := by
    rw [decide_eq_decide]; exact ⟨fun hn => mul_neg_of_neg_of_pos hn (by positivity), fun hn => neg_of_mul_neg_left hn (by positivity)⟩
  have hfin : roundedMag f rm (decide (n * 2 ^ f.unit < 0)) (n * 2 ^ f.unit).natAbs 1 < fpInfMag f := by
    rw [habs]; exact roundedMag_int_lt h hb rm _ hn
  have hone : 2 ^ f.frac ≤ n.natAbs * 2 ^ f.unit := by
    have hle : 2 ^ f.frac ≤ 2 ^ f.unit := Nat.pow_le_pow_right (by norm_num) (by unfold FpFormat.unit; omega)
    exact hle.trans (Nat.le_mul_of_pos_left _ (by omega))
  have htiny : isTiny f c.fpTinyAfter rm (decide (n * 2 ^ f.unit < 0)) (n * 2 ^ f.unit).natAbs 1 = false := by
    rw [isTiny, habs, decide_eq_false (by omega), Bool.false_and]
  have hclass : classFlags f (roundedBits f rm (n * 2 ^ f.unit) 1) = 0#9 := by
    refine classFlags_finite h _ hfin (roundedMag_pos rm _ ?_)
    rw [habs, Nat.div_one]
    exact lt_of_lt_of_le (Nat.two_pow_pos _) hone
  have hix : isInexact f (n * 2 ^ f.unit).natAbs 1 = decide (fpVal f (roundedBits f rm (n * 2 ^ f.unit) 1) ≠ n * 2 ^ f.unit) := by
    have := isInexact_iff h rm (n * 2 ^ f.unit) Nat.one_pos hfin
    rw [Nat.cast_one, mul_one] at this
    rw [Bool.eq_iff_iff, this, decide_eq_true_eq]
  refine ⟨roundedBits f rm (n * 2 ^ f.unit) 1, roundsTo_roundedBits h rm _ Nat.one_pos hfin, ?_⟩
  rw [fpOfInt, if_neg h0, hneg, ← habs, fpRound_of_lt hfin, htiny, hix]
  unfold withClass itofFlags
  cases c.fpClassFlags <;> simp [hclass, flagIf, h0]

/-- What `FP.itof` of the default record delivers, for any integer of the width. -/
theorem fpOfInt_delivers (h : f.Ok) (hb : f.HoldsInts) (c : Config) (rm : Rounding) {n : Int} (hn : n.natAbs ≤ 2 ^ (f.width - 1)) :
    ∃ v, (n = 0 → v = 0) ∧ (n ≠ 0 → RoundsTo f rm (n * 2 ^ f.unit) 1 v) ∧
      withClass f c (fpOfInt f c rm n) = ⟨v, itofFlags f c n v, false⟩ := by
  rcases eq_or_ne n 0 with rfl | h0
  · exact ⟨0, fun _ => rfl, fun hc => absurd rfl hc, fpOfInt_zero h c rm⟩
  · obtain ⟨v, hv, he⟩ := fpOfInt_ne_zero h hb c rm h0 hn
    exact ⟨v, fun hc => absurd hc h0, fun _ => hv, he⟩

/-! ### A number to an integer -/

/-- The integer a finite pattern rounds to (R309). -/
def fpRoundedInt (f : FpFormat) (rm : Rounding) (x : Nat) : Int :=
  signed (fpNeg f x) (roundQuotient rm (fpNeg f x) (fpMag f x) (2 ^ f.unit))

theorem fpToInt_eq (rm : Rounding) (free : BitVec 64) (x : Nat) :
    fpToInt f rm free x =
      if fpIsNan f x || fpIsInf f x || signedOverflow f.width (fpRoundedInt f rm x) then
        ⟨free.toNat % 2 ^ f.width, flIVF, true⟩
      else
        ⟨wrap f.width (fpRoundedInt f rm x), flagIf (fpMag f x % 2 ^ f.unit != 0) flIXF, false⟩ := by
  rw [← toNat_ofInt_wrap]
  rfl

theorem fpToInt_special {rm : Rounding} {free : BitVec 64} {x : Nat} (hx : fpIsNan f x = true ∨ fpIsInf f x = true) :
    (fpToInt f rm free x).flags = flIVF := by
  rw [fpToInt_eq, if_pos (by rcases hx with hx | hx <;> simp [hx])]

/-- A finite pattern: IVF out of range, else the integer, with IXF where it is inexact. -/
theorem fpToInt_finite {rm : Rounding} (free : BitVec 64) {x : Nat} {j : Int} (hx : fpExp f x < f.emax)
    (hj : RoundsToInt rm (fpVal f x) (2 ^ f.unit) j) :
    (OutOfRange f.width j → (fpToInt f rm free x).flags = flIVF) ∧
    (¬ OutOfRange f.width j → (fpToInt f rm free x).bits = wrap f.width j ∧
      (fpToInt f rm free x).flags = flagIf (decide (fpVal f x ≠ j * 2 ^ f.unit)) flIXF) := by
  have hpos : 0 < 2 ^ f.unit := Nat.two_pow_pos _
  rw [fpVal_eq_signed] at hj ⊢
  obtain rfl : j = fpRoundedInt f rm x := roundsToInt_unique hpos hj
  have hnan : fpIsNan f x = false := by simp [fpIsNan, hx.ne]
  have hinf : fpIsInf f x = false := by simp [fpIsInf, hx.ne]
  have hexact := roundQuotient_exact_iff rm (fpNeg f x) (fpMag f x) hpos
  push_cast at hexact
  rw [fpToInt_eq, hnan, hinf, Bool.false_or, Bool.false_or, ← signedOverflow_iff]
  refine ⟨fun ho => by rw [if_pos ho], fun ho => ?_⟩
  rw [if_neg ho]
  refine ⟨rfl, congrArg (flagIf · flIXF) ?_⟩
  rw [Bool.eq_iff_iff, bne_iff_ne, decide_eq_true_eq]
  exact not_congr hexact

/-! ### The instructions -/

/-- The operand of a conversion as a signed integer of its width. -/
def itofInt (f : FpFormat) (s : State) (rA : RegNum) : Int :=
  let x := s.uval rA % 2 ^ f.width
  if x < 2 ^ (f.width - 1) then x else (x : Int) - 2 ^ f.width

theorem itofInt_eq (h : f.Ok) (s : State) (rA : RegNum) : (BitVec.ofNat f.width (fpOperand f s rA)).toInt = itofInt f s rA := by
  have hx := fpOperand_lt f s rA
  have hw := h.pow_width
  rw [itofInt, ← fpOperand_eq, BitVec.toInt_eq_toNat_cond, BitVec.toNat_ofNat, Nat.mod_eq_of_lt hx]
  by_cases hlt : fpOperand f s rA < 2 ^ (f.width - 1)
  · rw [if_pos (by omega), if_pos hlt]
  · rw [if_neg (by omega), if_neg hlt]
    push_cast
    rfl

theorem itofInt_natAbs (h : f.Ok) (s : State) (rA : RegNum) : (itofInt f s rA).natAbs ≤ 2 ^ (f.width - 1) := by
  have hx := fpOperand_lt f s rA
  have hw : (2 : Int) ^ f.width = 2 * (2 ^ (f.width - 1) : Nat) := by exact_mod_cast h.pow_width
  have hw' := h.pow_width
  rw [itofInt, ← fpOperand_eq, hw]
  split <;> omega

/-- What the statement asks of the two conversions of a format. -/
def FpConverts (itof ftoi : Instr) (f : FpFormat) (s : State) (rD rA : RegNum) : Prop :=
  let x := s.uval rA % 2 ^ f.width
  let i := itofInt f s rA
  (s.cfg.fp = .ieee →
    (∃ v, (i = 0 → v = 0) ∧ (i ≠ 0 → RoundsTo f (roundingOf s.fpcsr) (i * 2 ^ f.unit) 1 v) ∧
      FpOutcome itof s rD [.reg rD, .fpcsr] v (itofFlags f s.cfg i v)) ∧
    (∃ v fl, (fpIsNan f x = true ∨ fpIsInf f x = true → fl = flIVF) ∧
      (∀ j : Int, fpExp f x < f.emax → RoundsToInt (roundingOf s.fpcsr) (fpVal f x) (2 ^ f.unit) j →
        (OutOfRange f.width j → fl = flIVF) ∧
        (¬ OutOfRange f.width j → v = wrap f.width j ∧ fl = flagIf (decide (fpVal f x ≠ j * 2 ^ f.unit)) flIXF)) ∧
      FpOutcome ftoi s rD [.reg rD, .fpcsr, .draws] v fl)) ∧
  (∀ n, s.cfg.fp = .other n → ∀ p ∈ ([(itof, .itof), (ftoi, .ftoi)] : List (Instr × FpOp)),
    let r := Config.fpOperation n p.2 f.width s.fpcsr (BitVec.ofNat 64 x) 0#64
    FpOutcome p.1 s rD [.reg rD, .fpcsr] (r.1.toNat % 2 ^ f.width) (if s.cfg.fpClassFlags then r.2 else r.2 &&& 0x163#9))

theorem itof_outcome (h : f.Ok) (hb : f.HoldsInts) (hw : f.width ≤ s.width) (hi : s.cfg.fp = .ieee) {rD rA : RegNum}
    (he : exec i s = fpConvert f .itof s rD rA) :
    ∃ v, (itofInt f s rA = 0 → v = 0) ∧
      (itofInt f s rA ≠ 0 → RoundsTo f (roundingOf s.fpcsr) (itofInt f s rA * 2 ^ f.unit) 1 v) ∧
      FpOutcome i s rD [.reg rD, .fpcsr] v (itofFlags f s.cfg (itofInt f s rA) v) := by
  obtain ⟨v, h0, hne, hr⟩ := fpOfInt_delivers h hb s.cfg (roundingOf s.fpcsr) (itofInt_natAbs h s rA)
  have hlt := fpOfInt_lt h s.cfg (roundingOf s.fpcsr) (itofInt f s rA)
  rw [← withClass_bits (f := f) s.cfg, hr] at hlt
  have he' : exec i s = fpResult s rD (withClass f s.cfg (fpOfInt f s.cfg (roundingOf s.fpcsr) (itofInt f s rA))) := by
    rw [he, fpConvert, fpApply_ieee hi, ← itofInt_eq h]
    rfl
  rw [hr] at he'
  exact ⟨v, h0, hne, fpOutcome_of_exec he' (fpWritten_frame_exact s rD _ rfl) hlt hw⟩

theorem ftoi_outcome (hw : f.width ≤ s.width) (hi : s.cfg.fp = .ieee) {rD rA : RegNum} (he : exec i s = fpConvert f .ftoi s rD rA) :
    let r := fpToInt f (roundingOf s.fpcsr) s.free (fpOperand f s rA)
    FpOutcome i s rD [.reg rD, .fpcsr, .draws] r.bits r.flags := by
  rw [fpConvert, fpApply_ieee hi] at he
  exact fpOutcome_of_exec he (fpWritten_frame s rD _) (fpToInt_lt _ _ _) hw

theorem fpConverts_of_exec (h : f.Ok) (hb : f.HoldsInts) (hw : f.width ≤ s.width) {itof ftoi : Instr} {rD rA : RegNum}
    (hitof : exec itof s = fpConvert f .itof s rD rA) (hftoi : exec ftoi s = fpConvert f .ftoi s rD rA) :
    FpConverts itof ftoi f s rD rA := by
  refine ⟨fun hi => ⟨itof_outcome h hb hw hi hitof, ?_⟩, fun n hn p hp => ?_⟩
  · exact ⟨_, _, fpToInt_special, fun j hx hj => fpToInt_finite s.free hx hj, ftoi_outcome hw hi hftoi⟩
  · simp only [List.mem_cons, List.not_mem_nil, or_false] at hp
    obtain rfl | rfl := hp
    · exact fpOutcome_other hw hn hitof
    · exact fpOutcome_other hw hn hftoi

end Sys2Proof.Machine

/-- Settles O51: `FP.itof` rounds correctly and `FP.ftoi` gives the one integer its operand rounds to; either way the
instruction ends in `fpResult`. -/
theorem floatConversions : Obligations.FloatConversions := by
  unfold Obligations.FloatConversions
  intro s rD rA e he hs hd
  have hfmt : HasFormat s.cfg e.2.2 := ⟨hs, hd⟩
  clear hs hd
  simp only [List.mem_cons, List.not_mem_nil, or_false] at he
  obtain rfl | rfl := he
  · exact fpConverts_of_exec fpSingle_ok fpSingle_holdsInts (fpSingle_le_width s)
      (whenPresent_true hfmt.single _) (whenPresent_true hfmt.single _)
  · exact fpConverts_of_exec fpDouble_ok fpDouble_holdsInts (fpDouble_le_width hfmt.double)
      (whenPresent_true hfmt.double _) (whenPresent_true hfmt.double _)

end

section
/-! PROOFS. Reset (O10, O11, O13) and the instruction a step runs (O6). -/

open Sys2Proof Sys2Proof.Machine

namespace Sys2Proof.Machine

theorem resetSr_eq (c : Config) : resetSr c = if c.resetEph then 0x0000C001#32 else 0x00008001#32 := rfl

/-- EVBAR after reset is `EVBAR_RESET` in bits 31:13 (R44). -/
theorem resetEvbar_toNat (c : Config) : (resetEvbar c).toNat = if c.evbarp then c.evbarReset.toNat * 2 ^ 13 else 0 := by
  unfold resetEvbar
  split
  · refine (BitVec.toNat_append c.evbarReset 0#13).trans ?_
    rw [BitVec.toNat_ofNat, Nat.zero_mod, Nat.or_zero, Nat.shiftLeft_eq]
  · rfl

theorem resetPc_toNat (c : Config) : (resetPc c).toNat = vectorOf (resetWith c) c.exceptions.reset.offset.toNat := by
  rw [resetPc_eq_vectorAddr, vectorAddr_toNat]
  rfl

/-- A fetched word that is an instruction runs as that instruction (R27, R115). -/
theorem runInstruction_of_decode {s : State} {bs : List Byte} {i : Instr} (hf : fetch s = .bytes bs) (hd : decode bs = .instr i) :
    runInstruction s = exec i s := by
  simp only [runInstruction, hf, runBytes, hd]

/-- Where nothing happens at the boundary, a step is the instruction (R512). -/
theorem step_of_nothing {s : State} (hb : boundary (nextInput s) (takeInput s) = .nothing) :
    step s = runInstruction (takeInput s) := by
  simp only [step, hb]

end Sys2Proof.Machine

/-- Settles O6. -/
theorem stepRunsDecodedInstruction : Obligations.StepRunsDecodedInstruction := by
  unfold Obligations.StepRunsDecodedInstruction
  intro s bs i hb hf hd
  rw [step_of_nothing hb, runInstruction_of_decode hf hd]

/-- Settles O10: SR after reset is a constant under the default configuration. -/
theorem resetModeAndMask : Obligations.ResetModeAndMask := by
  unfold Obligations.ResetModeAndMask
  decide

/-- Settles O11: the assignments of `resetWith`, with EVBAR and the reset vector as numbers; then the rows of the default
exception table. -/
theorem resetValues : Obligations.ResetValues := by
  unfold Obligations.ResetValues
  refine ⟨fun c => ⟨resetSr_eq c, resetEvbar_toNat c, resetPc_toNat c, rfl, rfl, rfl, rfl, rfl, rfl⟩, ?_⟩
  decide

/-- Settles O13, as the state after reset does under every configuration. -/
theorem resetMeetsInvariant : Obligations.ResetMeetsInvariant := by
  unfold Obligations.ResetMeetsInvariant
  exact resetWith_inv defaultConfig

end

section
/-! PROOFS. Taken jumps outside a delay slot, and the delay slot that follows (O29). -/

open Sys2Proof Sys2Proof.Machine

namespace Sys2Proof.Machine

variable {s t u : State}

/-! ### The six jumps and branches -/

/-- The target of a jump relative to the pc, as a number (R201). -/
def relativeTarget (s : State) (n : BitVec 26) : Nat := wrap s.width (s.pc.toNat + n.toInt * 4)

theorem jumps_lJr (hd : s.ds = none) (rB : RegNum) : Jumps (.lJr rB) s (s.uval rB) [] fun _ => True :=
  jumps_takeJump (outsideSlot_none hd _) (Frame.refl _ s) rfl hd (registerTarget_toNat s rB) trivial

theorem jumps_lJ (hd : s.ds = none) (n : BitVec 26) : Jumps (.lJ n) s (relativeTarget s n) [] fun _ => True :=
  jumps_takeJump (outsideSlot_none hd _) (Frame.refl _ s) rfl hd (branchTarget_toNat s n) trivial

/-- A conditional branch whose condition holds (R202, R203). -/
theorem jumps_branchIf {i : Instr} {taken : Bool} {n : BitVec 26} (he : exec i s = branchIf s taken n) (hd : s.ds = none)
    (ht : taken = true) : Jumps i s (relativeTarget s n) [] fun _ => True := by
  refine jumps_takeJump ?_ (Frame.refl _ s) rfl hd (branchTarget_toNat s n) trivial
  rw [he, branchIf, outsideSlot_none hd, if_pos ht]

/-- A jump that links: the return address is in r9 (R205, R206). -/
theorem jumps_jumpAndLink {i : Instr} {x : BitVec 64} {n : Nat} (he : exec i s = jumpAndLink s x) (hd : s.ds = none)
    (hx : x.toNat = n) :
    Jumps i s n [.reg linkReg] fun t => t.uval linkReg = (s.pc.toNat + if s.cfg.nd then 4 else 8) % 2 ^ s.width := by
  refine jumps_takeJump (u := s.setReg linkReg (linkAddr s)) ?_ ((Frame.refl _ s).setReg _ _ (by simp)) rfl hd hx ?_
  · rw [he, jumpAndLink, outsideSlot_none hd]
  · rw [State.uval_congr (State.takeJump_cfg _ _) (State.takeJump_regs _ _), State.uval_setReg, if_pos rfl, linkAddr_toNat,
      Nat.mod_mod]

/-- `l.jalr` that answers a next state does not name r9 (R214). -/
theorem lJalr_ne_linkReg {rB : RegNum} (he : exec (.lJalr rB) s = .next t) : rB ≠ linkReg := by
  rintro rfl
  have : exec (.lJalr linkReg) s = .refused .jalrLinkRegister := by
    simp only [exec, execLJalr, if_true]
  rw [this] at he
  cases he

theorem jumps_lJalr (hd : s.ds = none) {rB : RegNum} (hr : rB ≠ linkReg) :
    Jumps (.lJalr rB) s (s.uval rB) [.reg linkReg]
      fun t => t.uval linkReg = (s.pc.toNat + if s.cfg.nd then 4 else 8) % 2 ^ s.width :=
  jumps_jumpAndLink (if_neg hr) hd (registerTarget_toNat s rB)

/-! ### The delay slot -/

/-- After a taken jump the slot runs at `pc + 4`; an instruction that completes there is followed by the target, which was
fixed when the jump executed (R26, R213). -/
theorem Jumps.slot_then_target {j i : Instr} {n : Nat} {w w' : List Part} {post post' : State → Prop} (hj : Jumps j s n w post)
    (hnd : s.cfg.nd = false) (he : exec j s = .next t) (hc : Completes i t w' post') (hi : exec i t = .next u) :
    t.pc.toNat = (s.pc.toNat + 4) % 2 ^ s.width ∧ u.pc.toNat = n ∧ u.ds = none := by
  obtain ⟨t', he', -, -, -, -, hslot⟩ := hj
  obtain ⟨u', hi', ⟨hds, -, hpending, -⟩, -⟩ := hc
  obtain rfl : t = t' := by rw [he] at he'; cases he'; rfl
  obtain rfl : u = u' := by rw [hi] at hi'; cases hi'; rfl
  obtain ⟨hpc, x, hx, hn⟩ := hslot hnd
  exact ⟨hpc, by rw [hpending x hx, hn], hds⟩

end Sys2Proof.Machine

/-- Settles O29: each of the six takes its jump (`Jumps`), and `Jumps.slot_then_target` says what comes after. -/
theorem delaySlotThenTarget : Obligations.DelaySlotThenTarget := by
  unfold Obligations.DelaySlotThenTarget
  intro s t u rB n i w post relative e he hnd hds htaken hexec hslot hnext
  simp only [List.mem_cons, List.not_mem_nil, or_false] at he
  rcases he with rfl | rfl | rfl | rfl | rfl | rfl
  · exact (jumps_lJr hds rB).slot_then_target hnd hexec hslot hnext
  · exact (jumps_lJalr hds (lJalr_ne_linkReg hexec)).slot_then_target hnd hexec hslot hnext
  · exact (jumps_lJ hds n).slot_then_target hnd hexec hslot hnext
  · exact (jumps_jumpAndLink rfl hds (branchTarget_toNat s n)).slot_then_target hnd hexec hslot hnext
  · exact (jumps_branchIf rfl hds htaken).slot_then_target hnd hexec hslot hnext
  · exact (jumps_branchIf rfl hds htaken).slot_then_target hnd hexec hslot hnext

end

section
/-! PROOFS. The special registers: `l.mfspr` (O42), `l.mtspr` (O43, O44) and `l.rfe` (O45). What stands at an address is read
off the row of `sprTable`; what a write changes is said once for all registers. -/

open Sys2Proof Sys2Proof.Machine

namespace Sys2Proof.Machine

variable {s t : State} {c : Config} {a : BitVec 16} {n : Nat} {r : Spr} {b : Bool} {rA rB rD : RegNum} {k : BitVec 16}

/-! ### The register at an address -/

/-- The register of a row is the one at its address where the row says so, and else there is none (R38). -/
theorem sprAt_row (hrow : (n, r, b) ∈ sprTable c) (ha : a.toNat = n) : sprAt c a = if b then some r else none := by
  subst ha
  cases b
  · have hrange := sprTable_addr_lt _ hrow
    refine sprAt_none (fun _ _ => by dsimp only at hrange; omega) fun e he hea => ?_
    have huniq : e = (a.toNat, r, false) := List.inj_on_of_nodup_map (List.pairwise_map.2 sprTable_inj) he hrow hea
    rw [huniq]
  · exact sprAt_some hrow

/-- A register that is found is a general one or that of a row (R39). -/
theorem sprAt_eq_some (h : sprAt c a = some r) :
    (∃ g, r = .gpr g ∧ 0x400 ≤ a.toNat ∧ a.toNat < 0x420 ∧ sprListed c a.toNat false = true) ∨ (a.toNat, r, true) ∈ sprTable c := by
  unfold sprAt at h
  split at h
  · split at h
    · exact .inl ⟨_, (Option.some.inj h).symm, by omega, by omega, ‹_›⟩
    · cases h
  · split at h
    · rename_i e he
      have hmem := List.mem_of_find?_eq_some he
      have hprop := List.find?_some he
      simp only [Bool.and_eq_true, beq_iff_eq] at hprop
      obtain ⟨hn, hp⟩ := hprop
      rw [← hn, ← Option.some.inj h, ← hp]
      exact .inr hmem
    · cases h

/-! ### What a write changes -/

/-- The part of the state a write of a register changes: none where the register is read-only (R282). -/
def sprPart (r : Spr) : List Part :=
  match r with
  | .evbar => [.evbar]
  | .aecr => [.aecr]
  | .aesr => [.aesr]
  | .sr => (List.range 32).map .sr
  | .fpcsr => [.fpcsr]
  | .epcr => [.epcr]
  | .eear => [.eear]
  | .esr => [.esr]
  | .gpr r => [.reg r]
  | .maclo => [.maclo]
  | .machi => [.machi]
  | _ => []

theorem writeSpr_frame {v : BitVec 32} (h : writeSpr s r v = .ok t) : Frame (sprPart r) s t ∧ t.pc = s.pc ∧ t.ds = s.ds := by
  cases r <;> simp only [writeSpr] at h
  case sr =>
    split at h <;> cases h
    exact ⟨(Frame.refl _ s).setSr _ (by simp [sprPart]), rfl, rfl⟩
  case npc => cases h
  case gpr g =>
    cases h
    exact ⟨(Frame.refl _ s).setReg g _ (by simp [sprPart]), rfl, rfl⟩
  all_goals
    cases h
    exact ⟨by simp [Frame, State.srBit, sprPart], rfl, rfl⟩

/-- The word that `l.mtspr` offers: the low 32 bits of `x[rB]` (R282). -/
def offeredWord (s : State) (rB : RegNum) : BitVec 32 := (s.reg rB).setWidth 32

theorem offeredWord_toNat (s : State) (rB : RegNum) : (offeredWord s rB).toNat = s.uval rB % 2 ^ 32 :=
  BitVec.toNat_setWidth 32 _

theorem offeredWord_bit (s : State) (rB : RegNum) {j : Nat} (hj : j < 32) :
    (offeredWord s rB).getLsbD j = (s.uval rB).testBit j := by
  rw [offeredWord, BitVec.getLsbD_setWidth, decide_eq_true hj, Bool.true_and]
  rfl

/-- Bits masked off below bit 13, as a number (R44). -/
theorem and_evbarMask_toNat (v : BitVec 32) : (v &&& 0xFFFFE000#32).toNat = v.toNat / 2 ^ 13 * 2 ^ 13 := by
  have : v &&& 0xFFFFE000#32 = v >>> 13 <<< 13 := by
    apply BitVec.eq_of_getLsbD_eq
    intro j hj
    interval_cases j <;> simp
  rw [this]
  simp [Nat.shiftRight_eq_div_pow, Nat.shiftLeft_eq]
  omega

theorem and_fpcsrMask_toNat (v : BitVec 32) : (v &&& 0xFFF#32).toNat = v.toNat % 2 ^ 12 := by
  rw [BitVec.toNat_and]
  exact Nat.and_two_pow_sub_one_eq_mod v.toNat 12

theorem and_aecrBits_toNat (v : BitVec 32) (m : BitVec 7) : (v &&& m.setWidth 32).toNat = v.toNat &&& m.toNat := by
  rw [BitVec.toNat_and, BitVec.toNat_setWidth, Nat.mod_eq_of_lt (by omega)]

/-! ### Reading -/

/-- `l.mfspr` of the register of a row that is present (R280). -/
theorem mfspr_row {post : State → Prop} (hs : s.supervisor = true) (hrow : (n, r, b) ∈ sprTable s.cfg)
    (ha : (s.uval rA ||| k.toNat) % 2 ^ 16 = n) (hb : b = true)
    (hpost : ∀ t : State, t.cfg = s.cfg → t.pc = s.nextPc → t.uval rD = (readSpr s r).toNat → post t) :
    Completes (.lMfspr rD rA k) s [.reg rD] post := by
  subst hb
  exact mfspr_completes hs (sprRead_some ((sprAddr_toNat s rA k).trans ha) hrow) hpost

/-- The registers of the statement that stand at one address each and are there by default: the address, whether the
configuration has the register, and its value. -/
def readableSprs (s : State) : List (Nat × Bool × Nat) :=
  [(0x0001, true, s.cfg.uprValue.toNat), (0x0009, s.cfg.uvrp, s.cfg.vr2Cpuid.toNat * 2 ^ 24 + s.cfg.vr2Ver.toNat),
   (0x000A, s.cfg.avrp, s.cfg.avrValue.toNat), (0x000B, s.cfg.evbarp, s.evbar.toNat),
   (0x000C, s.cfg.aecsrp, s.aecr.toNat), (0x000D, s.cfg.aecsrp, s.aesr.toNat), (0x0011, true, s.sr.toNat),
   (0x0014, hasFpu s.cfg, s.fpcsr.toNat),
   (0x0020, true, s.epcr.toNat % 2 ^ 32), (0x0030, true, s.eear.toNat % 2 ^ 32), (0x0040, true, s.esr.toNat),
   (0x2801, s.cfg.hasMac, s.maclo.toNat), (0x2802, s.cfg.hasMac, s.machi.toNat)]

theorem vr2_toNat (a : BitVec 8) (b : BitVec 24) : (a ++ b).toNat = a.toNat * 2 ^ 24 + b.toNat := by
  rw [BitVec.toNat_append, Nat.shiftLeft_eq, Nat.mul_comm, Nat.two_pow_add_eq_or_of_lt b.isLt]

/-- Each of them is a row of the table, with that value. -/
theorem readableSprs_row {e : Nat × Bool × Nat} (he : e ∈ readableSprs s) :
    ∃ r, (e.1, r, e.2.1 && sprListed s.cfg e.1 true) ∈ sprTable s.cfg ∧ (readSpr s r).toNat = e.2.2 := by
  simp only [readableSprs, List.mem_cons, List.not_mem_nil, or_false] at he
  rcases he with rfl | rfl | rfl | rfl | rfl | rfl | rfl | rfl | rfl | rfl | rfl | rfl | rfl
  · exact ⟨.upr, by simp [sprTable], rfl⟩
  · exact ⟨.vr2, by simp [sprTable], vr2_toNat _ _⟩
  · exact ⟨.avr, by simp [sprTable], rfl⟩
  · exact ⟨.evbar, by simp [sprTable], rfl⟩
  · exact ⟨.aecr, by simp [sprTable], rfl⟩
  · exact ⟨.aesr, by simp [sprTable], rfl⟩
  · exact ⟨.sr, by simp [sprTable], rfl⟩
  · exact ⟨.fpcsr, by simp [sprTable], rfl⟩
  · exact ⟨.epcr, by simp [sprTable], BitVec.toNat_setWidth 32 _⟩
  · exact ⟨.eear, by simp [sprTable], BitVec.toNat_setWidth 32 _⟩
  · exact ⟨.esr, by simp [sprTable], rfl⟩
  · exact ⟨.maclo, by simp [sprTable], rfl⟩
  · exact ⟨.machi, by simp [sprTable], rfl⟩

theorem isr_row (c : Config) (j : Fin 8) : (0x15 + (j : Nat), .isr j, c.isrp && sprListed c (0x15 + j) true) ∈ sprTable c := by
  fin_cases j <;> simp [sprTable]

/-- What is at an address where something is: one of them, an ISR, VR, CPUCFGR, NPC or PPC. -/
def Stands (s : State) (n : Nat) : Prop :=
  (∃ e ∈ readableSprs s, e.1 = n ∧ e.2.1 = true ∧ sprListed s.cfg n true = true) ∨
  (0x15 ≤ n ∧ n < 0x1D ∧ s.cfg.isrp = true ∧ sprListed s.cfg n true = true) ∨
  ((n = 0 ∨ n = 2) ∧ sprListed s.cfg n true = true) ∨ ((n = 0x10 ∨ n = 0x12) ∧ sprListed s.cfg n false = true)

theorem stands_readable (i : Fin 13) {e : Nat × Bool × Nat} (he : (readableSprs s)[i] = e)
    (h : true = (e.2.1 && sprListed s.cfg e.1 true)) : Stands s e.1 := by
  obtain ⟨hp, hl⟩ := Bool.and_eq_true_iff.1 h.symm
  exact .inl ⟨e, he ▸ List.getElem_mem _, rfl, hp, hl⟩

theorem stands_isr (j : Fin 8) (h : true = (s.cfg.isrp && sprListed s.cfg (0x15 + j) true)) : Stands s (0x15 + j) := by
  obtain ⟨hp, hl⟩ := Bool.and_eq_true_iff.1 h.symm
  exact .inr (.inl ⟨by omega, by omega, hp, hl⟩)

theorem sprTable_stands (h : (n, r, true) ∈ sprTable s.cfg) : Stands s n := by
  simp only [sprTable, List.mem_cons, List.not_mem_nil, or_false, Prod.mk.injEq] at h
  rcases h with ⟨rfl, -, h⟩ | ⟨rfl, -, h⟩ | ⟨rfl, -, h⟩ | ⟨rfl, -, h⟩ | ⟨rfl, -, h⟩ | ⟨rfl, -, h⟩ | ⟨rfl, -, h⟩ | ⟨rfl, -, h⟩ |
    ⟨rfl, -, h⟩ | ⟨rfl, -, h⟩ | ⟨rfl, -, h⟩ | ⟨rfl, -, h⟩ | ⟨rfl, -, h⟩ | ⟨rfl, -, h⟩ | ⟨rfl, -, h⟩ | ⟨rfl, -, h⟩ | ⟨rfl, -, h⟩ |
    ⟨rfl, -, h⟩ | ⟨rfl, -, h⟩ | ⟨rfl, -, h⟩ | ⟨rfl, -, h⟩ | ⟨rfl, -, h⟩ | ⟨rfl, -, h⟩ | ⟨rfl, -, h⟩ | ⟨rfl, -, h⟩
  · exact .inr (.inr (.inl ⟨.inl rfl, h.symm⟩))
  · exact stands_readable 0 rfl h
  · exact .inr (.inr (.inl ⟨.inr rfl, h.symm⟩))
  · exact stands_readable 1 rfl h
  · exact stands_readable 2 rfl h
  · exact stands_readable 3 rfl h
  · exact stands_readable 4 rfl h
  · exact stands_readable 5 rfl h
  · exact .inr (.inr (.inr ⟨.inl rfl, h.symm⟩))
  · exact stands_readable 6 rfl h
  · exact .inr (.inr (.inr ⟨.inr rfl, h.symm⟩))
  · exact stands_readable 7 rfl h
  · exact stands_isr 0 h
  · exact stands_isr 1 h
  · exact stands_isr 2 h
  · exact stands_isr 3 h
  · exact stands_isr 4 h
  · exact stands_isr 5 h
  · exact stands_isr 6 h
  · exact stands_isr 7 h
  · exact stands_readable 8 rfl h
  · exact stands_readable 9 rfl h
  · exact stands_readable 10 rfl h
  · exact stands_readable 11 rfl h
  · exact stands_readable 12 rfl h

/-- VR is its constant but for bit 6 (R41). -/
theorem vrWord_toNat (c : Config) :
    (vrWord c).toNat % 64 = c.vrValue.toNat % 64 ∧ (vrWord c).toNat / 128 = c.vrValue.toNat / 128 ∧
      (vrWord c).toNat.testBit 6 = c.uvrp := by
  have hbit : ∀ j, (vrWord c).toNat.testBit j = if j = 6 then c.uvrp else c.vrValue.toNat.testBit j := fun j => by
    have := setBit_getLsbD c.vrValue 6 c.uvrp j
    simpa [vrWord, BitVec.getLsbD] using this
  refine ⟨?_, ?_, by rw [hbit, if_pos rfl]⟩
  · apply Nat.eq_of_testBit_eq
    intro j
    rw [show 64 = 2 ^ 6 from rfl, Nat.testBit_mod_two_pow, Nat.testBit_mod_two_pow, hbit]
    by_cases hj : j < 6
    · rw [if_neg (by omega)]
    · simp [hj]
  · apply Nat.eq_of_testBit_eq
    intro j
    rw [show 128 = 2 ^ 7 from rfl, Nat.testBit_div_two_pow, Nat.testBit_div_two_pow, hbit, if_neg (by omega)]

/-- A bit set above a number is a sum. -/
theorem setBit_toNat_of_lt {v : BitVec 32} {i : Nat} (hi : i < 32) (hv : v.toNat < 2 ^ i) (b : Bool) :
    (setBit v i b).toNat = v.toNat + b.toNat * 2 ^ i := by
  have hclear : v &&& ~~~BitVec.twoPow 32 i = v := by
    apply BitVec.eq_of_getLsbD_eq
    intro j hj
    rw [BitVec.getLsbD_and, BitVec.getLsbD_not, BitVec.getLsbD_twoPow]
    by_cases hji : i = j
    · have : v.getLsbD j = false := Nat.testBit_lt_two_pow (hji ▸ hv)
      rw [this, Bool.false_and]
    · simp [hj, hji]
  cases b
  · rw [setBit, if_neg (by simp), hclear, Bool.toNat_false, Nat.zero_mul, Nat.add_zero]
  · rw [setBit, if_pos rfl, BitVec.toNat_or, BitVec.toNat_twoPow_of_lt hi, Nat.or_comm,
      ← Nat.mul_one (2 ^ i), ← Nat.two_pow_add_eq_or_of_lt hv, Bool.toNat_true]
    ring

/-- CPUCFGR is the sum of its fields (R48). -/
theorem cpucfgrWord_toNat (c : Config) :
    (cpucfgrWord c).toNat = c.cpucfgrOther.toNat % 2 ^ 10 + c.nd.toNat * 2 ^ 10 + c.avrp.toNat * 2 ^ 11 +
        c.evbarp.toNat * 2 ^ 12 + c.isrp.toNat * 2 ^ 13 + c.aecsrp.toNat * 2 ^ 14 := by
  have hnd := Bool.toNat_le c.nd
  have havrp := Bool.toNat_le c.avrp
  have hevbarp := Bool.toNat_le c.evbarp
  have hisrp := Bool.toNat_le c.isrp
  have hmod := Nat.mod_lt c.cpucfgrOther.toNat (Nat.two_pow_pos 10)
  have h0 : (c.cpucfgrOther &&& 0x3FF#32).toNat = c.cpucfgrOther.toNat % 2 ^ 10 :=
    (BitVec.toNat_and ..).trans (Nat.and_two_pow_sub_one_eq_mod _ 10)
  have h10 := setBit_toNat_of_lt (i := 10) (by omega) (by rw [h0]; omega) c.nd
  have h11 := setBit_toNat_of_lt (i := 11) (by omega) (by rw [h10, h0]; omega) c.avrp
  have h12 := setBit_toNat_of_lt (i := 12) (by omega) (by rw [h11, h10, h0]; omega) c.evbarp
  have h13 := setBit_toNat_of_lt (i := 13) (by omega) (by rw [h12, h11, h10, h0]; omega) c.isrp
  have h14 := setBit_toNat_of_lt (i := 14) (by omega) (by rw [h13, h12, h11, h10, h0]; omega) c.aecsrp
  rw [cpucfgrWord, h14, h13, h12, h11, h10, h0]

/-! ### Writing -/

/-- `l.mtspr` to the register of a row: its write where the row is present, and nothing where it is not (R38, R282). -/
theorem mtspr_row {post : State → Prop} (hs : s.supervisor = true) (hrow : (n, r, b) ∈ sprTable s.cfg)
    (ha : (s.uval rA ||| k.toNat) % 2 ^ 16 = n) (hw : writeSpr s r (offeredWord s rB) = .ok t) (hpost : post t.advance) :
    (b = true → Completes (.lMtspr rA rB k) s (sprPart r) post) ∧ (b = false → Completes (.lMtspr rA rB k) s [] fun _ => True) := by
  have hat := sprAt_row hrow ((sprAddr_toNat s rA k).trans ha)
  constructor
  · rintro rfl
    obtain ⟨hframe, hpc, hds⟩ := writeSpr_frame hw
    exact mtspr_completes hs (by rw [sprWrite, hat]; exact hw) hframe hpc hds hpost
  · rintro rfl
    exact mtspr_completes hs (by rw [sprWrite, hat]; rfl) (Frame.refl _ s) rfl rfl trivial

/-- The same for a register that is there by default where the unit `p` is. -/
theorem mtspr_unitRow {p : Bool} {post : State → Prop} (hs : s.supervisor = true)
    (ha : (s.uval rA ||| k.toNat) % 2 ^ 16 = n) (hrow : (n, r, p && sprListed s.cfg n true) ∈ sprTable s.cfg)
    (hw : writeSpr s r (offeredWord s rB) = .ok t) (hpost : post t.advance) :
    (p = true → sprListed s.cfg n true = true → Completes (.lMtspr rA rB k) s (sprPart r) post) ∧
    (p = false ∨ sprListed s.cfg n true = false → Completes (.lMtspr rA rB k) s [] fun _ => True) := by
  obtain ⟨hpresent, habsent⟩ := mtspr_row hs hrow ha hw hpost
  exact ⟨fun hp hl => hpresent (by rw [hp, hl]; rfl), fun h => habsent (Bool.and_eq_false_iff.2 h)⟩

theorem mtspr_npc (hs : s.supervisor = true) (ha : (s.uval rA ||| k.toNat) % 2 ^ 16 = 0x10)
    (hl : sprListed s.cfg 0x10 false = true) : exec (.lMtspr rA rB k) s = .refused .npcWrite := by
  have hrow : (0x10, Spr.npc, true) ∈ sprTable s.cfg := by simp [sprTable, hl]
  exact mtspr_refused hs (by rw [sprWrite_some ((sprAddr_toNat s rA k).trans ha) hrow]; rfl)

theorem mtspr_gpr {g : RegNum} (hs : s.supervisor = true) (ha : (s.uval rA ||| k.toNat) % 2 ^ 16 = 0x400 + g.toNat)
    (hl : sprListed s.cfg (0x400 + g.toNat) false = true) :
    Completes (.lMtspr rA rB k) s [.reg g] fun t => t.uval g = s.uval rB % 2 ^ 32 := by
  have hat : sprAt s.cfg (sprAddr s rA k) = some (.gpr g) := by
    have hn := (sprAddr_toNat s rA k).trans ha
    exact sprAt_gpr hn (hn ▸ hl)
  refine mtspr_completes (u := s.setReg g (offeredWord s rB)) hs (by rw [sprWrite, hat]; rfl)
    ((Frame.refl _ s).setReg _ _ (by simp)) rfl rfl ?_
  rw [State.uval_congr (State.advance_cfg _) (State.advance_regs _), State.uval_setReg, if_pos rfl, offeredWord_toNat]
  refine Nat.mod_eq_of_lt (lt_of_lt_of_le (Nat.mod_lt _ (by norm_num)) (Nat.pow_le_pow_right (by norm_num) s.width_ge))

/-- The addresses of the registers a write changes (R282). -/
def writableAddrs : List Nat := [0x000B, 0x000C, 0x000D, 0x0011, 0x0014, 0x0020, 0x0030, 0x0040, 0x2801, 0x2802]

/-- At any other address of the table there is NPC or a read-only register. -/
theorem sprTable_readOnly (h : (n, r, true) ∈ sprTable c) (hn : n ∉ writableAddrs) :
    n = 0x10 ∧ sprListed c n false = true ∨ ∀ (s : State) (v : BitVec 32), writeSpr s r v = .ok s := by
  simp only [sprTable, List.mem_cons, List.not_mem_nil, or_false, Prod.mk.injEq] at h
  rcases h with ⟨rfl, rfl, h⟩ | ⟨rfl, rfl, h⟩ | ⟨rfl, rfl, h⟩ | ⟨rfl, rfl, h⟩ | ⟨rfl, rfl, h⟩ | ⟨rfl, rfl, h⟩ | ⟨rfl, rfl, h⟩ |
    ⟨rfl, rfl, h⟩ | ⟨rfl, rfl, h⟩ | ⟨rfl, rfl, h⟩ | ⟨rfl, rfl, h⟩ | ⟨rfl, rfl, h⟩ | ⟨rfl, rfl, h⟩ | ⟨rfl, rfl, h⟩ |
    ⟨rfl, rfl, h⟩ | ⟨rfl, rfl, h⟩ | ⟨rfl, rfl, h⟩ | ⟨rfl, rfl, h⟩ | ⟨rfl, rfl, h⟩ | ⟨rfl, rfl, h⟩ | ⟨rfl, rfl, h⟩ |
    ⟨rfl, rfl, h⟩ | ⟨rfl, rfl, h⟩ | ⟨rfl, rfl, h⟩ | ⟨rfl, rfl, h⟩
  iterate 5 · exact .inr fun _ _ => rfl
  iterate 3 · exact absurd (by decide) hn
  · exact .inl ⟨rfl, h.symm⟩
  · exact absurd (by decide) hn
  · exact .inr fun _ _ => rfl
  · exact absurd (by decide) hn
  iterate 8 · exact .inr fun _ _ => rfl
  iterate 5 · exact absurd (by decide) hn

/-- A write to an address without a writable register does nothing (R38, R39, R282). -/
theorem sprWrite_nothing {v : BitVec 32} (hn : a.toNat ∉ writableAddrs)
    (hl : a.toNat = 0x10 ∨ (0x400 ≤ a.toNat ∧ a.toNat < 0x420) → sprListed s.cfg a.toNat false = false) : sprWrite s a v = .ok s := by
  rw [sprWrite]
  cases h : sprAt s.cfg a with
  | none => rfl
  | some r =>
    obtain ⟨g, rfl, hlo, hhi, hg⟩ | hrow := sprAt_eq_some h
    · rw [hl (.inr ⟨hlo, hhi⟩)] at hg; cases hg
    · obtain ⟨hnpc, hp⟩ | hreadOnly := sprTable_readOnly hrow hn
      · rw [hl (.inl hnpc)] at hp; cases hp
      · exact hreadOnly s v

/-! ### SR -/

/-- The bits that SR refuses (R77, R79, R91). -/
def refusedBits (c : Config) : List Nat := [srLEE, srDCE, srICE] ++ (if c.hasMmu then [] else [srDME, srIME])

theorem refusedBits_lt {j : Nat} (hj : j ∈ refusedBits c) : j < 32 := by
  have : refusedBits c ⊆ List.range 32 := by unfold refusedBits; cases c.hasMmu <;> decide
  exact List.mem_range.1 (this hj)

/-- An SR that was written holds the word offered, but for the fixed bits (R36). -/
theorem srBit_of_writtenSr {v : BitVec 32} (ht : t.sr = writtenSr v) :
    t.srBit srFO = true ∧ (∀ j, 17 ≤ j → j ≤ 27 → t.srBit j = false) ∧
      ∀ j < 32, j ≠ srFO → (j < 17 ∨ 27 < j) → t.srBit j = v.getLsbD j := by
  have hbit : ∀ j, t.srBit j =
      if j = srFO then true else if 17 ≤ j ∧ j ≤ 27 then false else if j < 32 then v.getLsbD j else false := fun j => by
    rw [State.srBit, ht, writtenSr_bit]
  refine ⟨by rw [hbit, if_pos rfl], fun j hlo hhi => ?_, fun j hj hfo hout => ?_⟩
  · rw [hbit, if_neg (by unfold srFO; omega), if_pos ⟨hlo, hhi⟩]
  · rw [hbit, if_neg hfo, if_neg (by omega), if_pos hj]

/-- The word `l.mtspr` offers is refused exactly where `x[rB]` has a refused bit. -/
theorem refusedSr_offeredWord (s : State) (rB : RegNum) :
    refusedSr s.cfg (offeredWord s rB) = true ↔ ∃ j ∈ refusedBits s.cfg, (s.uval rB).testBit j = true := by
  rw [refusedSr_iff]
  refine exists_congr fun j => and_congr_right fun hj => ?_
  rw [offeredWord_bit s rB (refusedBits_lt hj)]

theorem sr_row (c : Config) : (0x11, Spr.sr, sprListed c 0x11 true) ∈ sprTable c := by simp [sprTable]

/-! ### Return from an exception -/

theorem lRfe_eq (hs : s.supervisor = true) (hd : s.ds = none) : exec .lRfe s = returnFromException s := by
  simp only [exec, execLRfe, privileged_supervisor hs, outsideSlot_none hd]

/-- The state `l.rfe` returns to (R285, R513). -/
def returned (s : State) : State := { s.goto s.epcr with sr := writtenSr s.esr, resv := none, ds := none }

theorem returned_frame (s : State) : Frame (.resv :: (List.range 32).map .sr) s (returned s) := by
  have hsr : Frame (.resv :: (List.range 32).map .sr) s { s with sr := writtenSr s.esr } :=
    (Frame.refl _ s).setSr _ (by simp)
  exact (hsr.setResv none (by simp)).pcOnly _ _ _

end Sys2Proof.Machine

/-- Settles O42: the registers of the statement are rows of `sprTable` (`readableSprs_row`, `isr_row`), and where none of them
stands there is nothing to read (`sprTable_stands`). -/
theorem mfsprResult : Obligations.MfsprResult := by
  unfold Obligations.MfsprResult
  intro s rD rA k a hs ha present
  have hread : ∀ {n : Nat} {r : Spr} {b : Bool} {post : State → Prop}, (n, r, b) ∈ sprTable s.cfg → a = n → b = true →
      (∀ t : State, t.cfg = s.cfg → t.pc = s.nextPc → t.uval rD = (readSpr s r).toNat → post t) →
      Completes (.lMfspr rD rA k) s [.reg rD] post := fun hrow han hb hpost => mfspr_row hs hrow (ha ▸ han) hb hpost
  refine ⟨?_, ?_, ?_, ?_, ?_, ?_, ?_, ?_⟩
  · intro e he hea hp hl
    obtain ⟨r, hrow, hv⟩ := readableSprs_row (s := s) he
    exact hread hrow hea.symm (by rw [hp, hea, hl]; rfl) fun t _ _ ht => ht.trans hv
  · intro j hj hp hl
    exact hread (isr_row s.cfg j) hj (by rw [hp, ← hj, hl]; rfl) fun t _ _ ht => ht
  · rintro rfl hl
    exact hread (r := .npc) (by simp [sprTable]) rfl hl fun t _ hpc ht => by rw [ht, hpc]; exact BitVec.toNat_setWidth 32 _
  · rintro rfl hl
    exact hread (r := .ppc) (by simp [sprTable]) rfl hl fun t _ _ ht => ht.trans (BitVec.toNat_setWidth 32 _)
  · intro g hg hl
    have hat : sprAt s.cfg (sprAddr s rA k) = some (.gpr g) := by
      have hn := ((sprAddr_toNat s rA k).trans ha.symm).trans hg
      exact sprAt_gpr hn (hn ▸ hg ▸ hl)
    exact mfspr_completes hs (v := readSpr s (.gpr g)) (by rw [sprRead, hat]) fun t _ _ ht => ht.trans (BitVec.toNat_setWidth 32 _)
  · rintro rfl hl
    refine hread (r := .vr) (by simp [sprTable]) rfl hl fun t _ _ ht => ?_
    rw [ht]; exact vrWord_toNat s.cfg
  · rintro rfl hl
    exact hread (r := .cpucfgr) (by simp [sprTable]) rfl hl fun t _ _ ht => ht.trans (cpucfgrWord_toNat s.cfg)
  · intro hreadable hisr hconst hother
    have hat : sprAt s.cfg (sprAddr s rA k) = none := by
      have hn := (sprAddr_toNat s rA k).trans ha.symm
      rw [Option.eq_none_iff_forall_ne_some]
      intro r hr
      obtain ⟨g, -, hlo, hhi, hg⟩ | hrow := sprAt_eq_some hr
      · rw [hn] at hlo hhi hg
        rw [hother (.inr (.inr ⟨hlo, hhi⟩))] at hg; cases hg
      · rw [hn] at hrow
        obtain ⟨e, he, hea, hp, hl⟩ | ⟨hlo, hhi, hp, hl⟩ | ⟨hc, hl⟩ | ⟨hc, hl⟩ := sprTable_stands hrow
        · have := hreadable e he hea
          simp [hp, hl] at this
        · have := hisr hlo hhi
          simp [hp, hl] at this
        · rw [hconst hc] at hl; cases hl
        · rw [hother (by tauto)] at hl; cases hl
    exact mfspr_completes hs (v := 0#32) (by rw [sprRead, hat]) fun t _ _ ht => ht

/-- Settles O43: each register of the statement is a row of `sprTable`, with its write (`mtspr_unitRow`); at every other address
nothing is written (`sprWrite_nothing`). -/
theorem mtsprResult : Obligations.MtsprResult := by
  unfold Obligations.MtsprResult
  intro s rA rB k a v hs ha hv
  have hval : (offeredWord s rB).toNat = v := (offeredWord_toNat s rB).trans hv.symm
  have hwide : ((offeredWord s rB).setWidth 64).toNat = v := by
    rw [BitVec.toNat_setWidth, hval, Nat.mod_eq_of_lt (by omega)]
  refine ⟨?_, ?_, ?_, ?_⟩
  · intro e he hea
    simp only [List.mem_cons, List.not_mem_nil, or_false] at he
    rcases he with rfl | rfl | rfl | rfl | rfl | rfl | rfl | rfl | rfl <;> subst hea
    · exact mtspr_unitRow (r := .evbar) hs ha.symm (by simp [sprTable]) rfl (hval ▸ and_evbarMask_toNat _)
    · exact mtspr_unitRow (r := .aecr) hs ha.symm (by simp [sprTable]) rfl (hval ▸ and_aecrBits_toNat _ _)
    · exact mtspr_unitRow (r := .aesr) hs ha.symm (by simp [sprTable]) rfl (hval ▸ and_aecrBits_toNat _ _)
    · exact mtspr_unitRow (r := .fpcsr) hs ha.symm (by simp [sprTable]) rfl (hval ▸ and_fpcsrMask_toNat _)
    · exact mtspr_unitRow (r := .epcr) hs ha.symm (by simp [sprTable]) rfl hwide
    · exact mtspr_unitRow (r := .eear) hs ha.symm (by simp [sprTable]) rfl hwide
    · exact mtspr_unitRow (r := .esr) hs ha.symm (by simp [sprTable]) rfl hval
    · exact mtspr_unitRow (r := .maclo) hs ha.symm (by simp [sprTable]) rfl hval
    · exact mtspr_unitRow (r := .machi) hs ha.symm (by simp [sprTable]) rfl hval
  · rintro rfl hl
    exact mtspr_npc hs ha.symm hl
  · intro g hg hl
    rw [hv]
    exact mtspr_gpr hs (ha.symm.trans hg) (hg ▸ hl)
  · intro hn hl
    have haddr := (sprAddr_toNat s rA k).trans ha.symm
    exact mtspr_completes hs (sprWrite_nothing (haddr ▸ hn) (haddr ▸ hl)) (Frame.refl _ s) rfl rfl trivial

/-- Settles O44: SR is a row of `sprTable`; its write is refused where a refused bit is offered, and else keeps its fixed
bits. -/
theorem mtsprToSr : Obligations.MtsprToSr := by
  unfold Obligations.MtsprToSr
  intro s rA rB k hs ha
  have hat := sprAt_row (sr_row s.cfg) ((sprAddr_toNat s rA k).trans ha)
  refine ⟨fun hl => ?_, fun hl => ⟨fun hbits => ?_, fun hbits => ?_⟩⟩
  · exact mtspr_completes hs (by rw [sprWrite, hat, hl]; rfl) (Frame.refl _ s) rfl rfl trivial
  · refine mtspr_refused hs ?_
    rw [sprWrite, hat, hl]
    exact if_pos ((refusedSr_offeredWord s rB).2 hbits)
  · have hw : writeSpr s .sr (offeredWord s rB) = .ok { s with sr := writtenSr (offeredWord s rB) } :=
      if_neg fun hr => hbits ((refusedSr_offeredWord s rB).1 hr)
    have hrow : (0x11, Spr.sr, true) ∈ sprTable s.cfg := hl ▸ sr_row s.cfg
    refine (mtspr_row hs hrow ha hw ?_).1 rfl
    obtain ⟨hfo, hreserved, hoffered⟩ :=
      srBit_of_writtenSr (t := State.advance { s with sr := writtenSr (offeredWord s rB) }) (v := offeredWord s rB) rfl
    exact ⟨hfo, hreserved, fun j hj hne hout => (hoffered j hj hne hout).trans (offeredWord_bit s rB hj)⟩

/-- Settles O45: `l.rfe` is `returnFromException`, which refuses ESR or goes to the state `returned`. -/
theorem returnFromException : Obligations.ReturnFromException := by
  unfold Obligations.ReturnFromException
  intro s hs hd
  refine ⟨fun hbits => ?_, fun hbits => ⟨returned s, ?_, returned_frame s, rfl, rfl, rfl, rfl, srBit_of_writtenSr rfl⟩⟩
  · rw [lRfe_eq hs hd, Machine.returnFromException, if_pos ((refusedSr_iff _ _).2 hbits)]
  · rw [lRfe_eq hs hd, Machine.returnFromException, if_neg fun hr => hbits ((refusedSr_iff _ _).1 hr)]
    rfl

end

section
/-! PROOFS. The operations of the default record on finite numbers (O54): what `fpRound` delivers, overflow and tininess
included; then each operation, by the exact value it rounds. -/

open Sys2Proof Sys2Proof.Machine

namespace Sys2Proof.Machine

variable {f : FpFormat} {rm : Rounding} {num : Int} {den : Nat}

/-! ### Overflow -/

/-- The magnitude that would follow the largest finite one, in units, and its distance from that one. -/
def fpLimit (f : FpFormat) : Nat := 2 ^ (f.emax - 1 + f.frac)
def fpGap (f : FpFormat) : Nat := 2 ^ (f.emax - 2)

theorem bitsMag_infMag (h : f.Ok) : bitsMag f (fpInfMag f) = fpLimit f := by
  have hemax := h.emax_pos
  have hk : 2 ^ f.frac ≤ 2 * 2 ^ f.frac := by omega
  have hsplit : fpInfMag f = (f.emax - 1) * 2 ^ f.frac + 2 ^ f.frac := by
    rw [fpInfMag, ← Nat.succ_mul]; congr 1; omega
  rw [hsplit, bitsMag_of_shift hk (.inr le_rfl), fpLimit, ← pow_add, Nat.add_comm]

/-- The largest finite magnitude. -/
theorem bitsMag_pred_infMag (h : f.Ok) : bitsMag f (fpInfMag f - 1) = fpLimit f - fpGap f := by
  have hemax := h.emax_pos
  have hpos : 0 < 2 ^ f.frac := Nat.two_pow_pos _
  have hsplit : fpInfMag f - 1 = (f.emax - 2) * 2 ^ f.frac + (2 * 2 ^ f.frac - 1) := by
    have : fpInfMag f = (f.emax - 2) * 2 ^ f.frac + 2 * 2 ^ f.frac := by
      rw [fpInfMag, ← Nat.add_mul]; congr 1; omega
    omega
  rw [hsplit, bitsMag_of_shift (by omega) (.inr (by omega)), fpLimit, fpGap, Nat.sub_mul, Nat.one_mul]
  congr 1
  rw [← pow_succ', ← pow_add]
  congr 1
  omega

theorem infMag_parity (h : f.Ok) : fpInfMag f % 2 = 0 := by
  rw [fpInfMag, Nat.mul_mod, even_two_pow_frac h, Nat.mul_zero, Nat.zero_mod]

/-- `FpOverflows` over the limit `x` and the last gap `y`, both times the denominator. -/
def BeyondFinite (rm : Rounding) (num : Int) (x y : Nat) : Prop :=
  match rm with
  | .nearest => 2 * x - y ≤ 2 * num.natAbs
  | .zero => x ≤ num.natAbs
  | .up => if 0 < num then x - y < num.natAbs else x ≤ num.natAbs
  | .down => if num < 0 then x - y < num.natAbs else x ≤ num.natAbs

theorem fpOverflows_eq (f : FpFormat) (rm : Rounding) (num : Int) (den : Nat) :
    FpOverflows f rm num den = BeyondFinite rm num (fpLimit f * den) (fpGap f * den) := by
  cases rm <;> simp only [FpOverflows, BeyondFinite, fpLimit, fpGap, Nat.sub_mul, Nat.mul_assoc]

/-- Above the limit everything overflows. -/
theorem beyondFinite_above (rm : Rounding) {x y : Nat} (hy : 0 < y) (hn : x ≤ num.natAbs) (hx : 0 < x) : BeyondFinite rm num x y := by
  cases rm <;> simp only [BeyondFinite]
  case nearest => omega
  case zero => omega
  case up => split <;> omega
  case down => split <;> omega

/-- Below the largest finite number nothing does. -/
theorem not_beyondFinite_below (rm : Rounding) {x y : Nat} (hn : num.natAbs < x - y) : ¬ BeyondFinite rm num x y := by
  cases rm <;> simp only [BeyondFinite]
  case nearest => omega
  case zero => omega
  case up => split <;> omega
  case down => split <;> omega

/-- Between the two, what is rounded up does; the significand `q` of the largest finite number is odd. -/
theorem beyondFinite_between (rm : Rounding) {q r x y : Nat} (hyx : y ≤ x) (hr : r < y) (hn : x - y + r = num.natAbs)
    (hodd : q % 2 = 1) : BeyondFinite rm num x y ↔ roundsUp rm (decide (num < 0)) q r y = true := by
  cases rm <;> simp only [BeyondFinite, roundsUp, hodd]
  case nearest => simp; omega
  case zero => simp; omega
  case up => split <;> simp <;> omega
  case down => split <;> simp <;> omega

/-- A result overflows where the magnitude bits reach those of infinity. -/
theorem fpOverflows_iff (h : f.Ok) (rm : Rounding) (num : Int) {den : Nat} (hden : 0 < den) :
    FpOverflows f rm num den ↔ fpInfMag f ≤ roundedMag f rm (decide (num < 0)) num.natAbs den := by
  have hgap : fpGap f * den ≤ fpLimit f * den := Nat.mul_le_mul_right den (Nat.pow_le_pow_right (by norm_num) (by omega))
  have hy : 0 < fpGap f * den := Nat.mul_pos (Nat.two_pow_pos _) hden
  have hmono := (bitsMag_strictMono f).monotone
  obtain ⟨hlo, hhi, hlt⟩ := truncBits_brackets f num.natAbs hden
  have hup := Bool.toNat_le (stepsUp f rm (decide (num < 0)) num.natAbs den)
  rw [roundedMag_eq, fpOverflows_eq]
  obtain hbig | hlast | hsmall : fpInfMag f ≤ truncBits f num.natAbs den ∨ truncBits f num.natAbs den + 1 = fpInfMag f ∨
      truncBits f num.natAbs den + 1 < fpInfMag f := by omega
  · have hlimit := Nat.mul_le_mul_right den (hmono hbig)
    rw [bitsMag_infMag h] at hlimit
    exact iff_of_true (beyondFinite_above rm hy (by omega) (by omega)) (by omega)
  · have hodd : fpTrunc f num.natAbs den % 2 = 1 := by
      have := truncBits_parity h num.natAbs den
      have := infMag_parity h
      omega
    have hstep : den * 2 ^ fpShift f (num.natAbs / den) = fpGap f * den := by
      have hpred : truncBits f num.natAbs den = fpInfMag f - 1 := by omega
      rw [hlast, hpred, bitsMag_infMag h, bitsMag_pred_infMag h, Nat.sub_mul] at hhi
      omega
    have hrem : num.natAbs % (fpGap f * den) < fpGap f * den := Nat.mod_lt _ hy
    rw [hlast, bitsMag_infMag h, hstep] at hhi
    rw [hstep] at hlo
    rw [beyondFinite_between rm hgap hrem (by omega) hodd, ← hstep]
    change stepsUp f rm (decide (num < 0)) num.natAbs den = true ↔ _
    cases stepsUp f rm (decide (num < 0)) num.natAbs den <;> simp <;> omega
  · have hlimit := Nat.mul_le_mul_right den (hmono (show truncBits f num.natAbs den + 1 ≤ fpInfMag f - 1 by omega))
    rw [bitsMag_pred_infMag h, Nat.sub_mul] at hlimit
    exact iff_of_false (not_beyondFinite_below rm (by omega)) (by omega)

/-! ### Tininess -/

theorem signed_inj (neg : Bool) {m n : Nat} : signed neg m = signed neg n ↔ m = n := by cases neg <;> simp [signed]

theorem signed_natAbs (num : Int) : signed (decide (num < 0)) num.natAbs = num := by
  unfold signed
  by_cases hn : num < 0
  · rw [if_pos (decide_eq_true hn)]; omega
  · rw [if_neg (by simpa using hn)]; omega

theorem signed_mul (neg : Bool) (m n : Nat) : signed neg (m * n) = m * signed neg n := by cases neg <;> simp [signed]

/-- `roundQuotient` gives an integer that the quotient rounds to. -/
theorem roundsToInt_roundQuotient (rm : Rounding) (neg : Bool) (n : Nat) {den : Nat} (hden : 0 < den) :
    RoundsToInt rm (signed neg n) den (signed neg (roundQuotient rm neg n den)) := by
  have hdm : n / den * den + n % den = n := Nat.div_add_mod' n den
  have hr : n % den < den := Nat.mod_lt n hden
  have habs : ∀ m : Nat, (signed neg m).natAbs = m := fun m => by cases neg <;> simp [signed]
  have hmul : ∀ m : Nat, signed neg m * den = signed neg (m * den) := fun m => by cases neg <;> simp [signed]
  cases rm
  case zero =>
    have hq : roundQuotient .zero neg n den = n / den := rfl
    refine ⟨?_, ?_, ?_⟩
    · rw [habs, habs, hq]; omega
    · rw [habs, habs, hq, Nat.add_mul]; omega
    · cases neg <;> simp [signed] <;> positivity
  all_goals
    simp only [RoundsToInt, sub_mul, add_mul, one_mul, hmul, roundQuotient]
    generalize hup : roundsUp _ neg (n / den) (n % den) den = up
    generalize n / den = q at *
    generalize n % den = r at *
    generalize hQ : q * den = Q at *
  case nearest =>
    cases neg <;> cases up <;> simp [signed, roundsUp] at hup ⊢ <;> omega
  case up =>
    cases neg <;> cases up <;> simp [signed, roundsUp] at hup ⊢ <;> omega
  case down =>
    cases neg <;> cases up <;> simp [signed, roundsUp] at hup ⊢ <;> omega

theorem roundsToInt_iff (rm : Rounding) (neg : Bool) (n : Nat) {den : Nat} (hden : 0 < den) (j : Int) :
    RoundsToInt rm (signed neg n) den j ↔ j = signed neg (roundQuotient rm neg n den) :=
  ⟨roundsToInt_unique hden, fun hj => hj ▸ roundsToInt_roundQuotient rm neg n hden⟩

theorem roundQuotient_le {n m : Nat} (rm : Rounding) (neg : Bool) (hn : n < m * den) : roundQuotient rm neg n den ≤ m := by
  have hq : n / den < m := Nat.div_lt_of_lt_mul (Nat.mul_comm m den ▸ hn)
  have := Bool.toNat_le (roundsUp rm neg (n / den) (n % den) den)
  unfold roundQuotient
  omega

/-- The test for tininess, as the statement says it (R56, log entry 17). -/
theorem isTiny_iff (f : FpFormat) (ta : Bool) (rm : Rounding) (h0 : num ≠ 0) (hden : 0 < den) :
    isTiny f ta rm (decide (num < 0)) num.natAbs den = true ↔ FpTiny f ta rm num den := by
  have htwice : 2 * num = signed (decide (num < 0)) (2 * num.natAbs) := by
    rw [signed_mul, signed_natAbs]; rfl
  have hsign : num.sign * 2 ^ (f.frac + 1) = signed (decide (num < 0)) (2 ^ (f.frac + 1)) := by
    rcases lt_or_gt_of_ne h0 with hn | hn
    · simp [signed, hn, Int.sign_eq_neg_one_of_neg hn]
    · simp [signed, not_lt.2 hn.le, Int.sign_eq_one_of_pos hn]
  unfold isTiny FpTiny
  rw [htwice, hsign, roundsToInt_iff rm _ _ hden, signed_inj, Bool.and_eq_true, decide_eq_true_eq, Nat.mul_comm den]
  refine and_congr_right fun hn => ?_
  have hle : roundQuotient rm (decide (num < 0)) (2 * num.natAbs) den ≤ 2 ^ (f.frac + 1) :=
    roundQuotient_le rm _ (by rw [pow_succ', Nat.mul_assoc]; omega)
  cases ta <;> simp
  omega

/-! ### What rounding delivers -/

theorem overflowsToInf_iff (rm : Rounding) (h0 : num ≠ 0) :
    (overflowsToInf rm (decide (num < 0)) = true ↔ rm = .nearest ∨ rm = .up ∧ 0 < num ∨ rm = .down ∧ num < 0) ∧
    (overflowsToInf rm (decide (num < 0)) = false ↔ rm = .zero ∨ rm = .up ∧ num < 0 ∨ rm = .down ∧ 0 < num) := by
  cases rm <;> simp [overflowsToInf] <;> omega

/-- The flags of a rounding, bit by bit. -/
theorem roundFlags_bit (ix un : Bool) (k : Nat) :
    (flagIf ix flIXF ||| flagIf un flUNF).getLsbD k = (ix && decide (k = 5) || un && decide (k = 1)) := by
  have hbit : ∀ (n : Nat) (fl : BitVec 9), fl.toNat = 2 ^ n → fl.getLsbD k = decide (k = n) := fun n fl hfl => by
    rw [BitVec.getLsbD, hfl, Nat.testBit_two_pow, decide_eq_decide, eq_comm]
  rw [BitVec.getLsbD_or, flagIf_bit, flagIf_bit, hbit 5 flIXF rfl, hbit 1 flUNF rfl]

/-- `fpRound` delivers the exact value `num / den`, rounded, with its flags (R300, IEEE 754). -/
theorem fpRound_delivers (h : f.Ok) (ta : Bool) (rm : Rounding) (h0 : num ≠ 0) (hden : 0 < den) :
    FpDelivers f ta rm num den (fpRound f ta rm (decide (num < 0)) num.natAbs den) := by
  have hover := fpOverflows_iff h rm num hden
  obtain ⟨hinf, hmax⟩ := overflowsToInf_iff rm h0
  refine ⟨fun ho => ?_, fun ho => ?_⟩
  · rw [fpRound, if_pos (hover.1 ho)]
    exact ⟨rfl, fun hm => by rw [hinf.2 hm]; rfl, fun hm => by rw [hmax.2 hm]; rfl⟩
  · have hfin := not_le.1 (mt hover.2 ho)
    have hix := isInexact_iff h rm num hden hfin
    have htiny := isTiny_iff f ta rm h0 hden
    rw [fpRound_of_lt hfin]
    refine ⟨roundsTo_roundedBits h rm num hden hfin, ?_, ?_, ?_, fun k h1 h5 => ?_⟩
    · rw [roundedBits, fpNeg_pattern _ (hfin.trans h.infMag_lt), decide_eq_true_eq]
    · rw [← hix, roundFlags_bit]; simp
    · rw [← hix, ← htiny, roundFlags_bit]; simp
    · rw [roundFlags_bit]; simp [h1, h5]

/-! ### Signs and magnitudes of finite numbers -/

section
variable {a b x : Nat}

theorem FpFinite.not_nan (hx : FpFinite f x) : fpIsNan f x = false := by simp [fpIsNan, hx.2.ne]
theorem FpFinite.not_inf (hx : FpFinite f x) : fpIsInf f x = false := by simp [fpIsInf, hx.2.ne]

theorem fpIsZero_iff (f : FpFormat) (x : Nat) : fpIsZero f x = true ↔ fpMag f x = 0 := by
  unfold fpIsZero fpMag
  rw [Bool.and_eq_true, beq_iff_eq, beq_iff_eq]
  split
  · simp [*]
  · have : 0 < (fpFrac f x + 2 ^ f.frac) * 2 ^ (fpExp f x - 1) := by positivity
    omega

theorem signed_eq_zero {neg : Bool} {n : Nat} : signed neg n = 0 ↔ n = 0 := by cases neg <;> simp [signed]

theorem signed_mul_signed (na nb : Bool) (m n : Nat) : signed na m * signed nb n = signed (na != nb) (m * n) := by
  cases na <;> cases nb <;> simp [signed]

/-- The sign of a product, the other factor being signed already. -/
theorem signed_bne (na nb : Bool) (n : Nat) : signed (na != nb) n = if na then -signed nb n else signed nb n := by
  cases na <;> cases nb <;> simp [signed]

theorem signed_sign {neg : Bool} {n : Nat} (hn : 0 < n) : (signed neg n).sign = signed neg 1 := by
  cases neg <;> simp [signed, Int.sign_eq_one_of_pos, hn]

theorem natAbs_signed (neg : Bool) (n : Nat) : (signed neg n).natAbs = n := by cases neg <;> simp [signed]

theorem fpVal_eq_zero : fpVal f x = 0 ↔ fpMag f x = 0 := signed_eq_zero

theorem fpVal_mul (f : FpFormat) (a b : Nat) : fpVal f a * fpVal f b = signed (fpNeg f a != fpNeg f b) (fpMag f a * fpMag f b) :=
  signed_mul_signed ..

/-- The dividend with the sign of the quotient. -/
theorem fpVal_mul_sign (a : Nat) (hb : fpVal f b ≠ 0) :
    fpVal f a * (fpVal f b).sign = signed (fpNeg f a != fpNeg f b) (fpMag f a) := by
  have hpos : 0 < fpMag f b := Nat.pos_of_ne_zero (mt fpVal_eq_zero.2 hb)
  rw [fpVal_eq_signed, fpVal_eq_signed, signed_sign hpos, signed_mul_signed, Nat.mul_one]

/-- A magnitude is rounded with its sign. -/
theorem fpRound_signed_delivers (h : f.Ok) (ta : Bool) (rm : Rounding) (neg : Bool) {m den : Nat} (hm : 0 < m) (hden : 0 < den) :
    FpDelivers f ta rm (signed neg m) den (fpRound f ta rm neg m den) := by
  have hneg : decide (signed neg m < 0) = neg := by cases neg <;> simp [signed]; omega
  have := fpRound_delivers h ta rm (mt signed_eq_zero.1 hm.ne') hden (num := signed neg m)
  rwa [hneg, natAbs_signed] at this

/-! ### Sums, products and quotients -/

theorem fpAdd_finite (c : Config) (rm : Rounding) (free : BitVec 64) (ha : FpFinite f a) (hb : FpFinite f b) :
    fpAdd f c rm free a b =
      if fpVal f a + fpVal f b = 0 then fpExact (fpPattern f (zeroSumNeg rm (fpNeg f a) (fpNeg f b)) 0)
      else fpRound f c.fpTinyAfter rm (decide (fpVal f a + fpVal f b < 0)) (fpVal f a + fpVal f b).natAbs 1 := by
  simp [fpAdd, ha.not_nan, hb.not_nan, ha.not_inf, hb.not_inf]

/-- What a sum delivers: the exact value rounded, or a zero with its sign (R303). -/
theorem fpAdd_delivers (h : f.Ok) (c : Config) (rm : Rounding) (free : BitVec 64) (ha : FpFinite f a) (hb : FpFinite f b) :
    (fpVal f a + fpVal f b ≠ 0 → FpDelivers f c.fpTinyAfter rm (fpVal f a + fpVal f b) 1 (fpAdd f c rm free a b)) ∧
    (fpVal f a + fpVal f b = 0 → (fpAdd f c rm free a b).flags = 0#9 ∧
      (fpAdd f c rm free a b).bits = fpPattern f (if fpNeg f a = fpNeg f b then fpNeg f a else decide (rm = .down)) 0) := by
  rw [fpAdd_finite c rm free ha hb]
  refine ⟨fun h0 => ?_, fun h0 => ?_⟩
  · rw [if_neg h0]
    exact fpRound_delivers h _ rm h0 Nat.one_pos
  · rw [if_pos h0]
    exact ⟨rfl, rfl⟩

theorem FpFinite.bits_lt (h : f.Ok) (hx : FpFinite f x) : x % 2 ^ (f.width - 1) < fpInfMag f := by
  have hexp := hx.2
  rw [← fpPattern_self h hx.1, fpExp_pattern h _ (Nat.mod_lt _ (Nat.two_pow_pos _))] at hexp
  exact (Nat.div_lt_iff_lt_mul (Nat.two_pow_pos _)).1 hexp

theorem FpFinite.mag_eq (h : f.Ok) (hx : FpFinite f x) : fpMag f x = bitsMag f (x % 2 ^ (f.width - 1)) := by
  rw [← natAbs_signed (fpNeg f x) (fpMag f x), ← fpVal_eq_signed, fpVal_natAbs h hx]

/-- The negative of a finite pattern is finite, with the value and the sign turned (R331). -/
theorem fpNegate_finite (h : f.Ok) (hx : FpFinite f x) :
    FpFinite f (fpNegate f x) ∧ fpVal f (fpNegate f x) = -fpVal f x ∧ fpNeg f (fpNegate f x) = !fpNeg f x := by
  have hlt : x % 2 ^ (f.width - 1) < 2 ^ (f.width - 1) := Nat.mod_lt _ (Nat.two_pow_pos _)
  refine ⟨fpFinite_pattern h _ (hx.bits_lt h), ?_, fpNeg_pattern _ hlt⟩
  rw [fpNegate, fpVal_pattern h _ hlt, ← hx.mag_eq h, fpVal]
  cases fpNeg f x <;> simp

theorem fpMul_delivers (h : f.Ok) (c : Config) (rm : Rounding) (free : BitVec 64) (ha : FpFinite f a) (hb : FpFinite f b) :
    (fpVal f a * fpVal f b ≠ 0 →
      FpDelivers f c.fpTinyAfter rm (fpVal f a * fpVal f b) (2 ^ f.unit) (fpMul f c rm free a b)) ∧
    (fpVal f a * fpVal f b = 0 →
      (fpMul f c rm free a b).flags = 0#9 ∧ (fpMul f c rm free a b).bits = fpPattern f (fpNeg f a != fpNeg f b) 0) := by
  have heq : fpMul f c rm free a b =
      if fpMag f a * fpMag f b = 0 then fpExact (fpPattern f (fpNeg f a != fpNeg f b) 0)
      else fpRound f c.fpTinyAfter rm (fpNeg f a != fpNeg f b) (fpMag f a * fpMag f b) (2 ^ f.unit) := by
    simp [fpMul, ha.not_nan, hb.not_nan, ha.not_inf, hb.not_inf, fpIsZero_iff]
  rw [heq, fpVal_mul, ne_eq, signed_eq_zero]
  refine ⟨fun h0 => ?_, fun h0 => ?_⟩
  · rw [if_neg h0]
    exact fpRound_signed_delivers h _ rm _ (Nat.pos_of_ne_zero h0) (Nat.two_pow_pos _)
  · rw [if_pos h0]
    exact ⟨rfl, rfl⟩

theorem fpDiv_delivers (h : f.Ok) (c : Config) (rm : Rounding) (free : BitVec 64) (ha : FpFinite f a) (hb : FpFinite f b)
    (hb0 : fpVal f b ≠ 0) :
    (fpVal f a ≠ 0 →
      FpDelivers f c.fpTinyAfter rm (fpVal f a * 2 ^ f.unit * (fpVal f b).sign) (fpVal f b).natAbs (fpDiv f c rm free a b)) ∧
    (fpVal f a = 0 →
      (fpDiv f c rm free a b).flags = 0#9 ∧ (fpDiv f c rm free a b).bits = fpPattern f (fpNeg f a != fpNeg f b) 0) := by
  have hmb : fpMag f b ≠ 0 := mt fpVal_eq_zero.2 hb0
  have heq : fpDiv f c rm free a b =
      if fpMag f a = 0 then fpExact (fpPattern f (fpNeg f a != fpNeg f b) 0)
      else fpRound f c.fpTinyAfter rm (fpNeg f a != fpNeg f b) (fpMag f a * 2 ^ f.unit) (fpMag f b) := by
    simp [fpDiv, ha.not_nan, hb.not_nan, ha.not_inf, hb.not_inf, fpIsZero_iff, hmb]
  have hnum : fpVal f a * 2 ^ f.unit * (fpVal f b).sign = signed (fpNeg f a != fpNeg f b) (fpMag f a * 2 ^ f.unit) := by
    rw [mul_right_comm, fpVal_mul_sign a hb0, Nat.mul_comm (fpMag f a), signed_mul]
    push_cast
    ring
  have hden : (fpVal f b).natAbs = fpMag f b := natAbs_signed ..
  rw [heq, hnum, hden, ne_eq, fpVal_eq_zero]
  refine ⟨fun h0 => ?_, fun h0 => ?_⟩
  · rw [if_neg h0]
    exact fpRound_signed_delivers h _ rm _ (Nat.mul_pos (Nat.pos_of_ne_zero h0) (Nat.two_pow_pos _)) (Nat.pos_of_ne_zero hmb)
  · rw [if_pos h0]
    exact ⟨rfl, rfl⟩

/-! ### Remainders -/

/-- A magnitude is a significand within the precision, shifted. -/
theorem fpMag_factor (f : FpFormat) (x : Nat) : ∃ k e, fpMag f x = k * 2 ^ e ∧ k < 2 ^ (f.frac + 1) := by
  have hfrac : fpFrac f x < 2 ^ f.frac := Nat.mod_lt _ (Nat.two_pow_pos _)
  unfold fpMag
  split
  · exact ⟨fpFrac f x, 0, by simp, by omega⟩
  · exact ⟨fpFrac f x + 2 ^ f.frac, fpExp f x - 1, rfl, by omega⟩

theorem fpShift_le_of_lt {n e : Nat} (hn : n < 2 ^ (f.frac + 1 + e)) : fpShift f n ≤ e := by
  unfold fpShift
  split
  · exact Nat.zero_le _
  · rename_i hbig
    have hn0 : n ≠ 0 := by have := Nat.two_pow_pos (f.frac + 1); omega
    have := (Nat.log2_lt hn0).2 hn
    omega

/-- A multiple of a shift that fits the precision is a number of the format, and rounding leaves it as it is. -/
theorem fpRound_exact (h : f.Ok) (ta : Bool) (rm : Rounding) (neg : Bool) {n e : Nat} (hdvd : 2 ^ e ∣ n)
    (hn : n < 2 ^ (f.frac + 1 + e)) (hfin : n < fpLimit f) :
    FpFinite f (fpRound f ta rm neg n 1).bits ∧ fpVal f (fpRound f ta rm neg n 1).bits = signed neg n ∧
      (fpRound f ta rm neg n 1).flags = 0#9 := by
  have hrem : n % (1 * 2 ^ fpShift f (n / 1)) = 0 := by
    rw [Nat.one_mul, Nat.div_one]
    exact Nat.mod_eq_zero_of_dvd ((Nat.pow_dvd_pow 2 (fpShift_le_of_lt hn)).trans hdvd)
  have hup : stepsUp f rm neg n 1 = false := by
    have : 0 < 1 * 2 ^ fpShift f (n / 1) := by positivity
    rw [stepsUp, hrem]
    cases rm <;> simp [roundsUp]
  have hmag : bitsMag f (roundedMag f rm neg n 1) = n := by
    obtain ⟨hlo, -, -⟩ := truncBits_brackets f n Nat.one_pos
    rw [roundedMag_eq, hup, Bool.toNat_false, Nat.add_zero]
    omega
  have hlt : roundedMag f rm neg n 1 < fpInfMag f := by
    rw [← (bitsMag_strictMono f).lt_iff_lt, hmag, bitsMag_infMag h]
    exact hfin
  have heq : fpRound f ta rm neg n 1 = ⟨fpPattern f neg (roundedMag f rm neg n 1), 0#9, false⟩ := by
    have hix : isInexact f n 1 = false := by simp only [isInexact, hrem, bne_self_eq_false]
    unfold fpRound
    dsimp only
    rw [if_neg (by omega), hix, Bool.false_and]
    rfl
  rw [heq]
  refine ⟨fpFinite_pattern h _ hlt, ?_, rfl⟩
  rw [fpVal_pattern h _ (hlt.trans h.infMag_lt), hmag]
  rfl

/-- How the quotient of a remainder is rounded (R317, R318). -/
def remRounding (k : RemKind) : Rounding := if k = .ieee then .nearest else .zero

/-- The remainder of the nearest quotient: from below, or from above where that is nearer. -/
theorem remMag_ieee (a b : Nat) :
    remMag .ieee a b = if roundsUp .nearest false (a / b) (a % b) b then (b - a % b, true) else (a % b, false) := rfl

/-- `remMag` is the dividend less the divisor times the rounded quotient, whatever the sign `neg` of the quotient. -/
theorem remMag_eq (k : RemKind) (neg : Bool) (a : Nat) {b : Nat} (hb : 0 < b) :
    (a : Int) - b * roundQuotient (remRounding k) neg a b = signed (remMag k a b).2 (remMag k a b).1 := by
  have hdm : (a : Int) = b * (a / b : Nat) + (a % b : Nat) := by exact_mod_cast (Nat.div_add_mod a b).symm
  have hlt := Nat.mod_lt a hb
  cases k
  case trunc =>
    have hq : roundQuotient (remRounding .trunc) neg a b = a / b := rfl
    rw [hq]
    simp only [remMag, signed, Bool.false_eq_true, if_false]
    omega
  case ieee =>
    have hq : roundQuotient (remRounding .ieee) neg a b = a / b + (roundsUp .nearest false (a / b) (a % b) b).toNat := rfl
    rw [hq, remMag_ieee]
    cases roundsUp .nearest false (a / b) (a % b) b
    · simp only [signed, Bool.toNat_false, Nat.add_zero, Bool.false_eq_true, if_false]
      omega
    · simp only [signed, Bool.toNat_true, if_true]
      push_cast [Nat.cast_sub hlt.le] at hdm ⊢
      rw [mul_add, mul_one]
      omega

/-- A remainder is at most either operand. -/
theorem remMag_le (k : RemKind) (a : Nat) {b : Nat} (hb : 0 < b) : (remMag k a b).1 ≤ a ∧ (remMag k a b).1 ≤ b := by
  have hle := Nat.mod_le a b
  have hlt := Nat.mod_lt a hb
  cases k
  case trunc => exact ⟨hle, hlt.le⟩
  case ieee =>
    rw [remMag_ieee]
    split
    · rename_i hup
      simp only [roundsUp, Bool.or_eq_true, Bool.and_eq_true, decide_eq_true_eq] at hup
      exact ⟨by omega, by omega⟩
    · exact ⟨hle, hlt.le⟩

/-- A remainder is a multiple of what divides both operands. -/
theorem remMag_dvd (k : RemKind) {a b d : Nat} (ha : d ∣ a) (hb : d ∣ b) : d ∣ (remMag k a b).1 := by
  have hmod : d ∣ a % b := (Nat.dvd_mod_iff hb).2 ha
  cases k
  case trunc => exact hmod
  case ieee =>
    rw [remMag_ieee]
    split
    · exact Nat.dvd_sub hb hmod
    · exact hmod

/-- A remainder is a number of the format: a multiple of the lesser of the operands' shifts, and at most the operand with it. -/
theorem remMag_representable (f : FpFormat) (k : RemKind) (a : Nat) {b : Nat} (hb : 0 < fpMag f b) :
    ∃ e, 2 ^ e ∣ (remMag k (fpMag f a) (fpMag f b)).1 ∧ (remMag k (fpMag f a) (fpMag f b)).1 < 2 ^ (f.frac + 1 + e) := by
  obtain ⟨ka, ea, ha, hka⟩ := fpMag_factor f a
  obtain ⟨kb, eb, hb', hkb⟩ := fpMag_factor f b
  obtain ⟨hlea, hleb⟩ := remMag_le k (fpMag f a) hb
  have hdvd : ∀ e, e ≤ ea → e ≤ eb → 2 ^ e ∣ (remMag k (fpMag f a) (fpMag f b)).1 := fun e hea heb =>
    remMag_dvd k (ha ▸ Dvd.dvd.mul_left (Nat.pow_dvd_pow 2 hea) ka) (hb' ▸ Dvd.dvd.mul_left (Nat.pow_dvd_pow 2 heb) kb)
  have hbound : ∀ m e, m < 2 ^ (f.frac + 1) → m * 2 ^ e < 2 ^ (f.frac + 1 + e) := fun m e hm => by
    rw [pow_add]; exact Nat.mul_lt_mul_of_pos_right hm (Nat.two_pow_pos e)
  rcases le_total ea eb with hle | hle
  · exact ⟨ea, hdvd ea le_rfl hle, lt_of_le_of_lt hlea (ha ▸ hbound ka ea hka)⟩
  · exact ⟨eb, hdvd eb hle le_rfl, lt_of_le_of_lt hleb (hb' ▸ hbound kb eb hkb)⟩

theorem fpRem_finite (c : Config) (rm : Rounding) (free : BitVec 64) (ha : FpFinite f a) (hb : FpFinite f b) (hb0 : fpVal f b ≠ 0) :
    fpRem f c rm free a b =
      if (remMag c.fpRemKind (fpMag f a) (fpMag f b)).1 = 0 then fpExact (fpPattern f (fpNeg f a) 0)
      else fpRound f c.fpTinyAfter rm (fpNeg f a != (remMag c.fpRemKind (fpMag f a) (fpMag f b)).2)
        (remMag c.fpRemKind (fpMag f a) (fpMag f b)).1 1 := by
  have hz : fpIsZero f b = false := by rw [← Bool.not_eq_true, fpIsZero_iff]; exact mt fpVal_eq_zero.2 hb0
  simp [fpRem, ha.not_nan, hb.not_nan, ha.not_inf, hb.not_inf, hz]

/-- The value of a remainder, from the integer its quotient rounds to. -/
theorem fpVal_sub_mul (k : RemKind) (a : Nat) {b : Nat} (hb0 : fpVal f b ≠ 0) {n : Int}
    (hn : RoundsToInt (remRounding k) (fpVal f a * (fpVal f b).sign) (fpVal f b).natAbs n) :
    fpVal f a - fpVal f b * n =
      signed (fpNeg f a != (remMag k (fpMag f a) (fpMag f b)).2) (remMag k (fpMag f a) (fpMag f b)).1 := by
  have hmb : 0 < fpMag f b := Nat.pos_of_ne_zero (mt fpVal_eq_zero.2 hb0)
  have hden : (fpVal f b).natAbs = fpMag f b := natAbs_signed ..
  rw [fpVal_mul_sign a hb0, hden] at hn
  obtain rfl := roundsToInt_unique hmb hn
  have hrem := remMag_eq k (fpNeg f a != fpNeg f b) (fpMag f a) hmb
  rw [fpVal_eq_signed, fpVal_eq_signed, signed_mul_signed, signed_bne _ (remMag k (fpMag f a) (fpMag f b)).2, ← hrem]
  cases fpNeg f a <;> cases fpNeg f b <;> simp [signed] <;> ring

/-- What a remainder delivers: the exact value, without a flag, a zero having the sign of the dividend (R317, R318). -/
theorem fpRem_delivers (h : f.Ok) (c : Config) (rm : Rounding) (free : BitVec 64) (ha : FpFinite f a) (hb : FpFinite f b)
    (hb0 : fpVal f b ≠ 0) {n : Int}
    (hn : RoundsToInt (remRounding c.fpRemKind) (fpVal f a * (fpVal f b).sign) (fpVal f b).natAbs n) :
    FpFinite f (fpRem f c rm free a b).bits ∧ fpVal f (fpRem f c rm free a b).bits = fpVal f a - fpVal f b * n ∧
      (fpRem f c rm free a b).flags = 0#9 ∧
      (fpVal f a = fpVal f b * n → (fpRem f c rm free a b).bits = fpPattern f (fpNeg f a) 0) := by
  have hmb : 0 < fpMag f b := Nat.pos_of_ne_zero (mt fpVal_eq_zero.2 hb0)
  have hvalue := fpVal_sub_mul c.fpRemKind a hb0 hn
  have hzero : fpVal f a = fpVal f b * n ↔ (remMag c.fpRemKind (fpMag f a) (fpMag f b)).1 = 0 := by
    rw [← sub_eq_zero, hvalue, signed_eq_zero]
  rw [fpRem_finite c rm free ha hb hb0, hzero, hvalue]
  split
  · rename_i h0
    have hinf : 0 < fpInfMag f := Nat.mul_pos (by have := h.emax_pos; omega) (Nat.two_pow_pos _)
    refine ⟨fpFinite_pattern h _ hinf, ?_, rfl, fun _ => rfl⟩
    rw [fpExact, h0, signed_eq_zero.2 rfl, fpVal_pattern h _ (Nat.two_pow_pos _), bitsMag]
    simp
  · rename_i h0
    obtain ⟨e, hdvd, hlt⟩ := remMag_representable f c.fpRemKind a hmb
    have hfin : (remMag c.fpRemKind (fpMag f a) (fpMag f b)).1 < fpLimit f := by
      refine lt_of_le_of_lt (remMag_le c.fpRemKind (fpMag f a) hmb).1 ?_
      rw [ha.mag_eq h, ← bitsMag_infMag h]
      exact bitsMag_strictMono f (ha.bits_lt h)
    obtain ⟨hfinite, hval, hflags⟩ := fpRound_exact h c.fpTinyAfter rm _ hdvd hlt hfin
    exact ⟨hfinite, hval, hflags, fun hc => absurd hc h0⟩

end

end Sys2Proof.Machine

/-- Settles O54: each operation rounds its exact value (`fpRound_delivers`) or delivers a signed zero; a remainder is itself a
number of the format (`remMag_representable`). -/
theorem floatOperationsRoundCorrectly : Obligations.FloatOperationsRoundCorrectly := by
  unfold Obligations.FloatOperationsRoundCorrectly
  intro f c rm free a b hf ha hb
  have h : f.Ok := by
    obtain rfl | rfl := hf
    · exact fpSingle_ok
    · exact fpDouble_ok
  obtain ⟨hmul, hmul0⟩ := fpMul_delivers h c rm free ha hb
  refine ⟨?_, hmul, hmul0, fun hb0 => ?_⟩
  · intro e he
    simp only [List.mem_cons, List.not_mem_nil, or_false] at he
    obtain rfl | rfl := he
    · exact fpAdd_delivers h c rm free ha hb
    · obtain ⟨hfinite, hval, hneg⟩ := fpNegate_finite h hb
      have := fpAdd_delivers h c rm free ha hfinite
      rwa [hval, hneg, ← sub_eq_add_neg] at this
  · obtain ⟨hdiv, hdiv0⟩ := fpDiv_delivers h c rm free ha hb hb0
    exact ⟨hdiv, hdiv0, fun n hn => fpRem_delivers h c rm free ha hb hb0 hn⟩

end

section
/-! PROOFS. The checks of an access in their order (O7, O31), the effective address (O30), the other agents (O9) and the
synchronisation instructions (O41). Each outcome of `translate`, `access` and `fetch` is one equation. -/

open Sys2Proof Sys2Proof.Machine

namespace Sys2Proof.Machine

variable {s : State} {k : AccessKind} {n pa : Nat} {ea : BitVec 64}

/-! ### Translation and the checks of an access -/

/-- Where translation is not supplied, or not enabled for this kind of access, an address is its own translation (R79). -/
theorem translate_disabled (h : s.cfg.hasMmu = false ∨ s.srBit (enableBit k) = false) : translate s k ea = .to ea.toNat := by
  rw [translate, if_neg]
  rcases h with h | h <;> simp [h]

/-- Alignment is checked before all else (R78, R83). -/
theorem access_misaligned (h : ea.toNat % n ≠ 0) : access s k n ea = .error (.alignment ea) := if_pos h

theorem access_miss (h : ea.toNat % n = 0) (ht : translate s k ea = .miss) : access s k n ea = .error (missOf k ea) := by
  rw [access, if_neg (not_not_intro h), ht]

theorem access_denied (h : ea.toNat % n = 0) (ht : translate s k ea = .denied) :
    access s k n ea = .error (pageFaultOf k ea) := by
  rw [access, if_neg (not_not_intro h), ht]

/-- The bus is asked last, at the physical address (R81, R83). -/
theorem access_translated (h : ea.toNat % n = 0) (ht : translate s k ea = .to pa) :
    access s k n ea = if busOk s.cfg pa n k then .ok pa else .error (.busError ea) := by
  rw [access, if_neg (not_not_intro h), ht]

/-! ### The fetch -/

/-- One of the four bytes at `pa` has been stored to since the last synchronisation (R90, log entry 14). -/
def WordStale (s : State) (pa : Nat) : Prop := s.cfg.fetchStale = true ∧ ∃ j < 4, pa + j ∈ s.stale

theorem wordStale_iff (s : State) (pa : Nat) :
    WordStale s pa ↔ (s.cfg.fetchStale && (List.range 4).any fun i => s.stale.contains (pa + i)) = true := by
  simp [WordStale]

theorem fetch_of_error {e : Exc} (h : access s .fetch 4 s.pc = .error e) : fetch s = .exc e := by
  simp only [fetch, h]

theorem fetch_of_stale (h : access s .fetch 4 s.pc = .ok pa) (hs : WordStale s pa) : fetch s = .stale := by
  simp only [fetch, h, if_pos ((wordStale_iff s pa).1 hs)]

theorem fetch_of_fresh (h : access s .fetch 4 s.pc = .ok pa) (hs : ¬ WordStale s pa) :
    fetch s = .bytes (readBytes s.mem pa 4) := by
  simp only [fetch, h, if_neg (mt (wordStale_iff s pa).2 hs)]

theorem runInstruction_of_exc {e : Exc} (h : fetch s = .exc e) : runInstruction s = raise s e := by
  simp only [runInstruction, h]

theorem runInstruction_of_stale (h : fetch s = .stale) : runInstruction s = .refused .staleFetch := by
  simp only [runInstruction, h]

/-- The rows of the exceptions a fetch raises, which carry its address (R500, R509). -/
def fetchRows (c : Config) (ea : BitVec 64) : List (Exc × ExcEntry) :=
  [(.alignment ea, c.exceptions.alignment), (.itlbMiss ea, c.exceptions.itlbMiss),
    (.insnPageFault ea, c.exceptions.insnPageFault), (.busError ea, c.exceptions.busError)]

theorem raisedIn_of_fetch {r : Exc × ExcEntry} (hr : r ∈ fetchRows s.cfg ea) : RaisedIn s r.1 r.2 ea (raise s r.1) := by
  simp only [fetchRows, List.mem_cons, List.not_mem_nil, or_false] at hr
  rcases hr with rfl | rfl | rfl | rfl <;> exact raisedIn_raise s _

/-! ### The outside -/

theorem nextInput_cons {i : Input} {rest : List Input} (h : s.inputs = i :: rest) : nextInput s = i := by
  simp only [nextInput, h]

/-! ### Synchronisation -/

/-- An instruction that only advances (R281, R283). -/
theorem completes_nothing {i : Instr} (he : exec i s = finish s) : Completes i s [] fun _ => True :=
  completes_finish he (Frame.refl _ s) rfl rfl trivial

/-- An instruction that makes fetch see every store before it (R90, R271, R284). -/
theorem completes_syncFetch {i : Instr} (he : exec i s = finish (syncFetch s)) : Completes i s [.stale] fun t => t.stale = [] :=
  completes_finish he ((Frame.refl _ s).syncFetch (by simp)) rfl rfl rfl

end Sys2Proof.Machine

/-- Settles O7: the checks are those of `access`; what it lets through is fetched unless stale, and what it stops is raised. -/
theorem fetchChecksInOrder : Obligations.FetchChecksInOrder := by
  unfold Obligations.FetchChecksInOrder
  intro s
  refine ⟨fun ha => fetch_of_error (access_misaligned ha), fun ha => ⟨fun ht => fetch_of_error (access_miss ha ht),
    fun ht => fetch_of_error (access_denied ha ht), fun pa ht => ⟨fun hb => ?_, fun hb => ?_⟩⟩, translate_disabled (k := .fetch),
    fun e he hx => ?_, runInstruction_of_stale⟩
  · exact fetch_of_error (by rw [access_translated ha ht, hb]; rfl)
  · have hok : access s .fetch 4 s.pc = .ok pa := by rw [access_translated ha ht, if_pos hb]
    exact ⟨fetch_of_stale hok, fetch_of_fresh hok⟩
  · rw [runInstruction_of_exc hx]
    exact raisedIn_of_fetch he

/-- Settles O9: memory is `writeCells` of the input's writes and the reservation `resvAfterCells`, or lost. -/
theorem outsideWritesLand : Obligations.OutsideWritesLand := by
  unfold Obligations.OutsideWritesLand
  intro s i rest hin hwf
  have hi : nextInput s = i := nextInput_cons hin
  simp only [takeInput_mem, takeInput_resv, hi]
  refine ⟨fun a ha => readByte_writeCells_ne _ ha, fun a b before after hw ha => ?_, fun r hr hlost => ?_,
    fun r hr hkept hmiss => ?_, fun hr => ?_, rfl, rfl, rfl, rfl⟩
  · rw [hw]
    exact readByte_writeCells_last before after hwf ha
  · rcases hlost with hlost | hhit
    · rw [if_pos hlost]
    · rw [hr, resvAfterCells_hit _ hhit, ite_self]
  · rw [if_neg (by simp [hkept]), hr, resvAfterCells_miss _ hmiss]
  · rw [hr, resvAfterCells_none, ite_self]

/-- Settles O30, by `effectiveAddr_toNat`. -/
theorem effectiveAddress : Obligations.EffectiveAddress := by
  unfold Obligations.EffectiveAddress
  exact effectiveAddr_toNat

/-- Settles O31: an equation of `access` for each outcome, with `BusOK` byte by byte (`busOk_iff`). -/
theorem dataAccessChecks : Obligations.DataAccessChecks := by
  unfold Obligations.DataAccessChecks
  intro s k n ea hk
  have hmiss : missOf k ea = .dtlbMiss ea := by rcases hk with rfl | rfl <;> rfl
  have hdenied : pageFaultOf k ea = .dataPageFault ea := by rcases hk with rfl | rfl <;> rfl
  have henable : enableBit k = srDME := by rcases hk with rfl | rfl <;> rfl
  refine ⟨access_misaligned, fun ha => ⟨fun pa ht => ?_, fun ht => hmiss ▸ access_miss ha ht,
    fun ht => hdenied ▸ access_denied ha ht⟩, fun h => translate_disabled (henable ▸ h)⟩
  simp only [← busOk_iff, access_translated ha ht]
  exact ⟨fun hb => if_pos hb, fun hb => if_neg hb⟩

/-- Settles O41: two of the four end in the state as it is, two in `syncFetch` of it. -/
theorem synchronisationResult : Obligations.SynchronisationResult := by
  unfold Obligations.SynchronisationResult
  exact fun s k => ⟨completes_nothing rfl, completes_nothing rfl, completes_syncFetch rfl, completes_syncFetch rfl⟩

end

section
/-! PROOFS. Loads and stores (O32, O33), the reserved pair (O34, O35), and a load after a store (O37): which instructions are
`loadOp` and `storeOp`, and what these do where the checks succeed. -/

open Sys2Proof Sys2Proof.Machine

namespace Sys2Proof.Machine

variable {s t : State} {i : Instr} {n pa : Nat} {rD rA rB : RegNum} {imm : BitVec 16}

/-! ### The instructions -/

theorem hasDoubleWord_of_x64 {c : Config} (h : c.xlen = .x64) : hasDoubleWord c = true := by simp [hasDoubleWord, h]

/-- A datum that exists at this `XLEN` fits a register: eight bytes ask for 64 bits (R220). -/
theorem datum_le_width (hn : n = 8 ∨ n ≤ 4) (hx : n = 8 → s.cfg.xlen = .x64) : 8 * n ≤ s.width := by
  obtain rfl | hn := hn
  · exact (State.width_x64 (hx rfl)).ge
  · rcases s.width_cases with h | h <;> omega

/-- The loads that every `XLEN` has, with their bytes and whether they extend the sign (R221 to R228). -/
def narrowLoads (rD rA : RegNum) (imm : BitVec 16) : List (Instr × Nat × Bool) :=
  [(.lLbz rD rA imm, 1, false), (.lLbs rD rA imm, 1, true), (.lLhz rD rA imm, 2, false), (.lLhs rD rA imm, 2, true),
    (.lLwz rD rA imm, 4, false), (.lLws rD rA imm, 4, true)]

theorem exec_narrowLoads {e : Instr × Nat × Bool} (s : State) (he : e ∈ narrowLoads rD rA imm) :
    exec e.1 s = loadOp e.2.1 e.2.2 s rD rA imm ∧ 0 < e.2.1 ∧ e.2.1 ≤ 4 := by
  simp only [narrowLoads, List.mem_cons, List.not_mem_nil, or_false] at he
  rcases he with rfl | rfl | rfl | rfl | rfl | rfl <;> exact ⟨rfl, by simp, by simp⟩

theorem exec_lLd (h : s.cfg.xlen = .x64) : exec (.lLd rD rA imm) s = loadOp 8 false s rD rA imm :=
  whenPresent_true (hasDoubleWord_of_x64 h) _

theorem exec_lSd (h : s.cfg.xlen = .x64) : exec (.lSd rA rB imm) s = storeOp 8 s rA rB imm :=
  whenPresent_true (hasDoubleWord_of_x64 h) _

/-- The stores, with their bytes (R229 to R232). -/
def storeInstrs (rA rB : RegNum) (imm : BitVec 16) : List (Instr × Nat) :=
  [(.lSb rA rB imm, 1), (.lSh rA rB imm, 2), (.lSw rA rB imm, 4), (.lSd rA rB imm, 8)]

theorem exec_storeInstrs {e : Instr × Nat} (he : e ∈ storeInstrs rA rB imm) (hx : e.2 = 8 → s.cfg.xlen = .x64) :
    exec e.1 s = storeOp e.2 s rA rB imm := by
  simp only [storeInstrs, List.mem_cons, List.not_mem_nil, or_false] at he
  rcases he with rfl | rfl | rfl | rfl
  · rfl
  · rfl
  · rfl
  · exact exec_lSd (hx rfl)

/-- Each store with the load of the same bytes that extends with zeros. -/
def storeLoadPairs (rD rA rB : RegNum) (imm : BitVec 16) : List (Instr × Instr × Nat) :=
  [(.lSb rA rB imm, .lLbz rD rA imm, 1), (.lSh rA rB imm, .lLhz rD rA imm, 2), (.lSw rA rB imm, .lLwz rD rA imm, 4),
    (.lSd rA rB imm, .lLd rD rA imm, 8)]

theorem storeLoadPairs_store {e : Instr × Instr × Nat} (he : e ∈ storeLoadPairs rD rA rB imm) :
    (e.1, e.2.2) ∈ storeInstrs rA rB imm := by
  simp only [storeLoadPairs, List.mem_cons, List.not_mem_nil, or_false] at he
  rcases he with rfl | rfl | rfl | rfl <;> simp [storeInstrs]

theorem exec_storeLoadPairs_load {e : Instr × Instr × Nat} (he : e ∈ storeLoadPairs rD rA rB imm)
    (hx : e.2.2 = 8 → s.cfg.xlen = .x64) :
    exec e.2.1 s = loadOp e.2.2 false s rD rA imm ∧ 0 < e.2.2 ∧ (e.2.2 = 8 ∨ e.2.2 ≤ 4) := by
  simp only [storeLoadPairs, List.mem_cons, List.not_mem_nil, or_false] at he
  rcases he with rfl | rfl | rfl | rfl
  · exact ⟨rfl, by simp, by simp⟩
  · exact ⟨rfl, by simp, by simp⟩
  · exact ⟨rfl, by simp, by simp⟩
  · exact ⟨exec_lLd (hx rfl), by simp, by simp⟩

/-! ### The reserved pair -/

/-- The state in which `l.lwa` ends, before it advances (R86, R226). -/
def reservedLoad (s : State) (rD : RegNum) (pa : Nat) : State :=
  { s.setReg rD ((loadDatum s pa 4).setWidth s.width) with resv := some pa }

theorem exec_lLwa (hl : s.cfg.hasLwa = true) (ha : access s .load 4 (effectiveAddr s rA imm) = .ok pa) :
    exec (.lLwa rD rA imm) s = finish (reservedLoad s rD pa) :=
  (whenPresent_true hl _).trans (by simp only [ha, reservedLoad])

/-- The state in which `l.swa` ends where the reservation holds, before it advances (R87). -/
def reservedStore (s : State) (pa v : Nat) : State := { (storeDatum s pa 4 v).setF true with resv := none }

theorem reservedStore_frame (s : State) (pa v : Nat) : Frame [.mem, .resv, .stale, .sr srF] s (reservedStore s pa v) :=
  (((Frame.refl _ s).storeDatum pa 4 v (by simp) (by simp) (by simp)).setSrBit srF true (by simp)).setResv none (by simp)

/-- The state in which `l.swa` ends where the reservation does not hold, before it advances (R87). -/
def failedStore (s : State) : State := { s.setF false with resv := none }

theorem failedStore_frame (s : State) : Frame [.resv, .sr srF] s (failedStore s) :=
  ((Frame.refl _ s).setSrBit srF false (by simp)).setResv none (by simp)

theorem flagF_of_setF {b : Bool} (h : t.sr = (s.setF b).sr) : t.flagF = b := by
  rw [State.flagF_eq, State.srBit_of_sr h]
  simp [srF]

theorem exec_lSwa (hl : s.cfg.hasLwa = true) (ha : access s .store 4 (effectiveAddr s rA imm) = .ok pa) :
    exec (.lSwa rA rB imm) s =
      if s.resv = some pa then finish (reservedStore s pa (s.uval rB)) else finish (failedStore s) :=
  (whenPresent_true hl _).trans (by simp only [ha, reservedStore, failedStore, State.uval])

/-! ### A load after a store -/

/-- The one state an instruction that completes answers has the effect. -/
theorem Completes.post_of_next {w : List Part} {post : State → Prop} (h : Completes i s w post) (he : exec i s = .next t) :
    post t := by
  obtain ⟨t', he', -, -, hpost⟩ := h
  obtain rfl : t = t' := by rw [he] at he'; cases he'; rfl
  exact hpost

theorem effectiveAddr_congr (hc : t.cfg = s.cfg) (hr : t.regs = s.regs) : effectiveAddr t rA imm = effectiveAddr s rA imm :=
  BitVec.eq_of_toNat_eq <| by
    rw [effectiveAddr_toNat, effectiveAddr_toNat, State.uval_congr hc hr, State.width_eq, State.width_eq, hc]

/-- The checks depend on the configuration and SR alone. -/
theorem access_congr {k : AccessKind} {ea : BitVec 64} (hc : t.cfg = s.cfg) (hsr : t.sr = s.sr) :
    access t k n ea = access s k n ea := by
  have ht : translate t k ea = translate s k ea := by
    simp only [translate, State.supervisor_eq, State.srBit_of_sr hsr, hc]
  simp only [access, ht, hc]

/-- A store changes neither the address of a later access nor its checks. -/
theorem access_advance_storeDatum (s : State) (k : AccessKind) (n : Nat) (rA : RegNum) (imm : BitVec 16) (q m v : Nat) :
    access (storeDatum s q m v).advance k n (effectiveAddr (storeDatum s q m v).advance rA imm) =
      access s k n (effectiveAddr s rA imm) :=
  (congrArg _ (effectiveAddr_congr rfl rfl)).trans (access_congr rfl rfl)

/-- Memory spells the number that has just been stored (R74, R75). -/
theorem memNat_storeDatum (n pa v : Nat) (hm : Memory.wf s.mem = true) :
    memNat (storeDatum s pa n v).mem pa n = v % 2 ^ (8 * n) := by
  rw [memNat_of_bytes fun j hj => storeDatum_inside pa n v j hm hj, pow_mul]
  rfl

end Sys2Proof.Machine

/-- Settles O32: each is `loadOp`, whose result is `loadOp_completes`. -/
theorem loadResult : Obligations.LoadResult := by
  unfold Obligations.LoadResult
  intro s rD rA imm pa
  refine ⟨fun e he ha => ?_, fun hx ha => ?_⟩
  · obtain ⟨hexec, hpos, hle⟩ := exec_narrowLoads s he
    exact loadOp_completes hexec ha hpos (datum_le_width (.inr hle) (by omega))
  · exact loadOp_completes (exec_lLd hx) ha (by decide) (datum_le_width (.inl rfl) fun _ => hx)

/-- Settles O33: each is `storeOp`, which writes memory by `storeDatum`. -/
theorem storeResult : Obligations.StoreResult := by
  unfold Obligations.StoreResult
  intro s rA rB imm pa e he hx hm ha
  exact storeOp_completes (exec_storeInstrs he hx) ha (storeDatum_effect s pa e.2 (s.uval rB) hm)

/-- Settles O34: the word is written as by a load of four bytes, and the reservation is its physical address. -/
theorem loadAtomicResult : Obligations.LoadAtomicResult := by
  unfold Obligations.LoadAtomicResult
  intro s rD rA imm pa hl ha
  refine completes_finish (exec_lLwa hl ha) (((Frame.refl _ s).setReg rD _ (by simp)).setResv _ (by simp)) rfl rfl ⟨?_, rfl⟩
  rw [uval_of_setReg (t := (reservedLoad s rD pa).advance) ((loadDatum s pa 4).setWidth s.width) rfl rfl]
  exact loadValue_toNat s 4 pa false (by decide) (datum_le_width (.inr le_rfl) (by omega))

/-- Settles O35: where the reservation holds the word is stored by `storeDatum`, and else only F and the reservation are
written. -/
theorem storeAtomicResult : Obligations.StoreAtomicResult := by
  unfold Obligations.StoreAtomicResult
  intro s rA rB imm pa hl hm ha
  refine ⟨fun hr => ?_, fun hr => ?_⟩
  · obtain ⟨hinside, houtside, hkept, hstale, -⟩ := storeDatum_effect s pa 4 (s.uval rB) hm
    exact completes_finish ((exec_lSwa hl ha).trans (if_pos hr)) (reservedStore_frame s pa _) rfl rfl
      ⟨hinside, houtside, hkept, hstale, flagF_of_setF (s := storeDatum s pa 4 (s.uval rB)) rfl, rfl⟩
  · exact completes_finish ((exec_lSwa hl ha).trans (if_neg hr)) (failedStore_frame s) rfl rfl
      ⟨flagF_of_setF (s := s) rfl, rfl⟩

/-- Settles O37: the store changes neither the address of the load nor its checks, and leaves in memory the number it
stored. -/
theorem storeThenLoad : Obligations.StoreThenLoad := by
  unfold Obligations.StoreThenLoad
  intro s t u rD rA rB imm pa e he hx hm hstore hload ht hu
  have hstored : Completes e.1 s [.mem, .resv, .stale] fun t => t = (storeDatum s pa e.2.2 (s.uval rB)).advance :=
    storeOp_completes (exec_storeInstrs (storeLoadPairs_store he) hx) hstore rfl
  obtain rfl := hstored.post_of_next ht
  obtain ⟨hexec, hpos, hle⟩ := exec_storeLoadPairs_load (s := (storeDatum s pa e.2.2 (s.uval rB)).advance) he hx
  have hloaded := loadOp_completes hexec ((access_advance_storeDatum ..).trans hload) hpos (datum_le_width hle hx)
  exact (hloaded.post_of_next hu).trans (memNat_storeDatum e.2.2 pa (s.uval rB) hm)

end

section
/-! PROOFS. The decoder and the encoder: the word of an instruction decodes to it (O1, O4), a word that decodes is the word of its
instruction (O2), and a word matches one row at most (O3). -/

open Sys2Proof Sys2Proof.Machine

namespace Sys2Proof

/-! ### From the instruction to its word and back -/

open Laws.EncodingRoundTrip in
/-- The word of an instruction decodes to it: the constructors of `Instr` and the laws of `Laws/PerInstr.lean` answer to each
other one to one. -/
theorem decodeWord_encode (i : Instr) : decodeWord (encode i) = .instr i := by
  cases i with
  | lAdd => exact lAdd .. | lAddc => exact lAddc .. | lAddi => exact lAddi .. | lAddic => exact lAddic ..
  | lAnd => exact lAnd .. | lAndi => exact lAndi .. | lBf => exact lBf .. | lBnf => exact lBnf ..
  | lCmov => exact lCmov .. | lCsync => exact lCsync | lCust1 => exact lCust1 .. | lCust2 => exact lCust2 ..
  | lCust3 => exact lCust3 .. | lCust4 => exact lCust4 .. | lCust5 => exact lCust5 .. | lCust6 => exact lCust6 ..
  | lCust7 => exact lCust7 .. | lCust8 => exact lCust8 .. | lDiv => exact lDiv .. | lDivu => exact lDivu ..
  | lExtbs => exact lExtbs .. | lExtbz => exact lExtbz .. | lExths => exact lExths .. | lExthz => exact lExthz ..
  | lExtws => exact lExtws .. | lExtwz => exact lExtwz .. | lFf1 => exact lFf1 .. | lFl1 => exact lFl1 ..
  | lJ => exact lJ .. | lJal => exact lJal .. | lJalr => exact lJalr .. | lJr => exact lJr .. | lLbs => exact lLbs ..
  | lLbz => exact lLbz .. | lLd => exact lLd .. | lLhs => exact lLhs .. | lLhz => exact lLhz ..
  | lLwa => exact lLwa .. | lLws => exact lLws .. | lLwz => exact lLwz .. | lMac => exact lMac ..
  | lMaci => exact lMaci .. | lMacrc => exact lMacrc .. | lMacu => exact lMacu .. | lMfspr => exact lMfspr ..
  | lMovhi => exact lMovhi .. | lMsb => exact lMsb .. | lMsbu => exact lMsbu .. | lMsync => exact lMsync
  | lMtspr => exact lMtspr .. | lMul => exact lMul .. | lMuld => exact lMuld .. | lMuldu => exact lMuldu ..
  | lMuli => exact lMuli .. | lMulu => exact lMulu .. | lNop => exact lNop .. | lOr => exact lOr ..
  | lOri => exact lOri .. | lPsync => exact lPsync | lRfe => exact lRfe | lRor => exact lRor ..
  | lRori => exact lRori .. | lSb => exact lSb .. | lSd => exact lSd .. | lSfeq => exact lSfeq ..
  | lSfeqi => exact lSfeqi .. | lSfges => exact lSfges .. | lSfgesi => exact lSfgesi .. | lSfgeu => exact lSfgeu ..
  | lSfgeui => exact lSfgeui .. | lSfgts => exact lSfgts .. | lSfgtsi => exact lSfgtsi .. | lSfgtu => exact lSfgtu ..
  | lSfgtui => exact lSfgtui .. | lSfles => exact lSfles .. | lSflesi => exact lSflesi .. | lSfleu => exact lSfleu ..
  | lSfleui => exact lSfleui .. | lSflts => exact lSflts .. | lSfltsi => exact lSfltsi .. | lSfltu => exact lSfltu ..
  | lSfltui => exact lSfltui .. | lSfne => exact lSfne .. | lSfnei => exact lSfnei .. | lSh => exact lSh ..
  | lSll => exact lSll .. | lSlli => exact lSlli .. | lSra => exact lSra .. | lSrai => exact lSrai ..
  | lSrl => exact lSrl .. | lSrli => exact lSrli .. | lSub => exact lSub .. | lSw => exact lSw ..
  | lSwa => exact lSwa .. | lSys => exact lSys .. | lTrap => exact lTrap .. | lXor => exact lXor ..
  | lXori => exact lXori .. | lfAddD => exact lfAddD .. | lfAddS => exact lfAddS .. | lfCust1D => exact lfCust1D ..
  | lfCust1S => exact lfCust1S .. | lfDivD => exact lfDivD .. | lfDivS => exact lfDivS ..
  | lfFtoiD => exact lfFtoiD .. | lfFtoiS => exact lfFtoiS .. | lfItofD => exact lfItofD ..
  | lfItofS => exact lfItofS .. | lfMaddD => exact lfMaddD .. | lfMaddS => exact lfMaddS ..
  | lfMulD => exact lfMulD .. | lfMulS => exact lfMulS .. | lfRemD => exact lfRemD .. | lfRemS => exact lfRemS ..
  | lfSfeqD => exact lfSfeqD .. | lfSfeqS => exact lfSfeqS .. | lfSfgeD => exact lfSfgeD ..
  | lfSfgeS => exact lfSfgeS .. | lfSfgtD => exact lfSfgtD .. | lfSfgtS => exact lfSfgtS ..
  | lfSfleD => exact lfSfleD .. | lfSfleS => exact lfSfleS .. | lfSfltD => exact lfSfltD ..
  | lfSfltS => exact lfSfltS .. | lfSfneD => exact lfSfneD .. | lfSfneS => exact lfSfneS ..
  | lfSubD => exact lfSubD .. | lfSubS => exact lfSubS .. | lvAddB => exact lvAddB .. | lvAddH => exact lvAddH ..
  | lvAddsB => exact lvAddsB .. | lvAddsH => exact lvAddsH .. | lvAdduB => exact lvAdduB ..
  | lvAdduH => exact lvAdduH .. | lvAddusB => exact lvAddusB .. | lvAddusH => exact lvAddusH ..
  | lvAllEqB => exact lvAllEqB .. | lvAllEqH => exact lvAllEqH .. | lvAllGeB => exact lvAllGeB ..
  | lvAllGeH => exact lvAllGeH .. | lvAllGtB => exact lvAllGtB .. | lvAllGtH => exact lvAllGtH ..
  | lvAllLeB => exact lvAllLeB .. | lvAllLeH => exact lvAllLeH .. | lvAllLtB => exact lvAllLtB ..
  | lvAllLtH => exact lvAllLtH .. | lvAllNeB => exact lvAllNeB .. | lvAllNeH => exact lvAllNeH ..
  | lvAnd => exact lvAnd .. | lvAnyEqB => exact lvAnyEqB .. | lvAnyEqH => exact lvAnyEqH ..
  | lvAnyGeB => exact lvAnyGeB .. | lvAnyGeH => exact lvAnyGeH .. | lvAnyGtB => exact lvAnyGtB ..
  | lvAnyGtH => exact lvAnyGtH .. | lvAnyLeB => exact lvAnyLeB .. | lvAnyLeH => exact lvAnyLeH ..
  | lvAnyLtB => exact lvAnyLtB .. | lvAnyLtH => exact lvAnyLtH .. | lvAnyNeB => exact lvAnyNeB ..
  | lvAnyNeH => exact lvAnyNeH .. | lvAvgB => exact lvAvgB .. | lvAvgH => exact lvAvgH ..
  | lvCmpEqB => exact lvCmpEqB .. | lvCmpEqH => exact lvCmpEqH .. | lvCmpGeB => exact lvCmpGeB ..
  | lvCmpGeH => exact lvCmpGeH .. | lvCmpGtB => exact lvCmpGtB .. | lvCmpGtH => exact lvCmpGtH ..
  | lvCmpLeB => exact lvCmpLeB .. | lvCmpLeH => exact lvCmpLeH .. | lvCmpLtB => exact lvCmpLtB ..
  | lvCmpLtH => exact lvCmpLtH .. | lvCmpNeB => exact lvCmpNeB .. | lvCmpNeH => exact lvCmpNeH ..
  | lvCust1 => exact lvCust1 .. | lvCust2 => exact lvCust2 .. | lvCust3 => exact lvCust3 ..
  | lvCust4 => exact lvCust4 .. | lvMaddsH => exact lvMaddsH .. | lvMaxB => exact lvMaxB ..
  | lvMaxH => exact lvMaxH .. | lvMergeB => exact lvMergeB .. | lvMergeH => exact lvMergeH ..
  | lvMinB => exact lvMinB .. | lvMinH => exact lvMinH .. | lvMsubsH => exact lvMsubsH ..
  | lvMulsH => exact lvMulsH .. | lvNand => exact lvNand .. | lvNor => exact lvNor .. | lvOr => exact lvOr ..
  | lvPackB => exact lvPackB .. | lvPackH => exact lvPackH .. | lvPacksB => exact lvPacksB ..
  | lvPacksH => exact lvPacksH .. | lvPackusB => exact lvPackusB .. | lvPackusH => exact lvPackusH ..
  | lvPermN => exact lvPermN .. | lvRlB => exact lvRlB .. | lvRlH => exact lvRlH .. | lvSll => exact lvSll ..
  | lvSllB => exact lvSllB .. | lvSllH => exact lvSllH .. | lvSraB => exact lvSraB .. | lvSraH => exact lvSraH ..
  | lvSrl => exact lvSrl .. | lvSrlB => exact lvSrlB .. | lvSrlH => exact lvSrlH .. | lvSubB => exact lvSubB ..
  | lvSubH => exact lvSubH .. | lvSubsB => exact lvSubsB .. | lvSubsH => exact lvSubsH ..
  | lvSubuB => exact lvSubuB .. | lvSubuH => exact lvSubuH .. | lvSubusB => exact lvSubusB ..
  | lvSubusH => exact lvSubusH .. | lvUnpackB => exact lvUnpackB .. | lvUnpackH => exact lvUnpackH ..
  | lvXor => exact lvXor ..

theorem decode_encodeBytes (i : Instr) : decode (encodeBytes i) = .instr i :=
  (decode_bytesOfWord (encode i)).trans (decodeWord_encode i)

theorem decode_of_encodeBytes {bs : List Byte} {i : Instr} (h : encodeBytes i = bs) : decode bs = .instr i :=
  h ▸ decode_encodeBytes i

/-! ### Fields -/

/-- The bits of a word that a field of `n` bits at bit `lo` holds. -/
def fieldMask (lo n : Nat) : InsnWord := put lo (BitVec.allOnes n)

theorem put_field (lo n : Nat) (w : InsnWord) : put lo (field lo n w) = w &&& fieldMask lo n := by
  apply BitVec.eq_of_getLsbD_eq
  intro j hj
  rw [fieldMask, BitVec.getLsbD_and, put_getLsbD, put_getLsbD, field_getLsbD, BitVec.getLsbD_allOnes]
  by_cases hlo : j < lo
  · simp [hlo]
  · by_cases hn : j - lo < n
    · simp [hj, hlo, hn, show lo + (j - lo) = j by omega]
    · simp [hn]

theorem fieldSplit_hi (w : InsnWord) : (fieldSplit w).extractLsb' 11 5 = field 21 5 w := by
  apply BitVec.eq_of_getLsbD_eq
  intro j hj
  rw [BitVec.getLsbD_extractLsb', fieldSplit, BitVec.getLsbD_append]
  simp [hj]

theorem fieldSplit_lo (w : InsnWord) : (fieldSplit w).extractLsb' 0 11 = field 0 11 w := by
  apply BitVec.eq_of_getLsbD_eq
  intro j hj
  rw [BitVec.getLsbD_extractLsb', fieldSplit, BitVec.getLsbD_append]
  simp [hj]

theorem fieldFree_hi (w : InsnWord) : (fieldFree w).extractLsb' 7 5 = field 21 5 w := by
  apply BitVec.eq_of_getLsbD_eq
  intro j hj
  rw [BitVec.getLsbD_extractLsb', fieldFree, BitVec.getLsbD_append, BitVec.getLsbD_append]
  simp [hj, show ¬ 7 + j < 4 by omega, show ¬ 7 + j - 4 < 3 by omega, show 7 + j - 4 - 3 = j by omega]

theorem fieldFree_mid (w : InsnWord) : (fieldFree w).extractLsb' 4 3 = field 8 3 w := by
  apply BitVec.eq_of_getLsbD_eq
  intro j hj
  rw [BitVec.getLsbD_extractLsb', fieldFree, BitVec.getLsbD_append, BitVec.getLsbD_append]
  simp [hj]

theorem fieldFree_lo (w : InsnWord) : (fieldFree w).extractLsb' 0 4 = field 0 4 w := by
  apply BitVec.eq_of_getLsbD_eq
  intro j hj
  rw [BitVec.getLsbD_extractLsb', fieldFree, BitVec.getLsbD_append]
  simp [hj]

theorem or_and_or_and (p w a b : InsnWord) : p ||| (w &&& a) ||| (w &&& b) = p ||| (w &&& (a ||| b)) := by
  rw [BitVec.or_assoc, BitVec.and_or_distrib_left]

theorem put_zero (lo n : Nat) : put lo 0#n = 0#32 := by simp [put]

/-! ### Formats

Each format of R104 on the fields of a word: the word with zeros for operands, and the operand bits of the word. -/

theorem encRRR_fields (s98 : BitVec 2) (s30 : BitVec 4) (w : InsnWord) :
    encRRR s98 s30 (fieldD w) (fieldA w) (fieldB w) =
      encRRR s98 s30 0#_ 0#_ 0#_ ||| (w &&& (fieldMask 21 5 ||| fieldMask 16 5 ||| fieldMask 11 5)) := by
  simp only [encRRR, fieldD, fieldA, fieldB, put_field, put_zero, BitVec.or_zero, or_and_or_and]

theorem encRRRs_fields (s96 s30 : BitVec 4) (w : InsnWord) :
    encRRRs s96 s30 (fieldD w) (fieldA w) (fieldB w) =
      encRRRs s96 s30 0#_ 0#_ 0#_ ||| (w &&& (fieldMask 21 5 ||| fieldMask 16 5 ||| fieldMask 11 5)) := by
  simp only [encRRRs, fieldD, fieldA, fieldB, put_field, put_zero, BitVec.or_zero, or_and_or_and]

theorem encRR_fields (s96 s30 : BitVec 4) (w : InsnWord) :
    encRR s96 s30 (fieldD w) (fieldA w) =
      encRR s96 s30 0#_ 0#_ ||| (w &&& (fieldMask 21 5 ||| fieldMask 16 5)) := by
  simp only [encRR, fieldD, fieldA, put_field, put_zero, BitVec.or_zero, or_and_or_and]

theorem encRAB_fields (s98 : BitVec 2) (s30 : BitVec 4) (w : InsnWord) :
    encRAB s98 s30 (fieldA w) (fieldB w) =
      encRAB s98 s30 0#_ 0#_ ||| (w &&& (fieldMask 16 5 ||| fieldMask 11 5)) := by
  simp only [encRAB, fieldA, fieldB, put_field, put_zero, BitVec.or_zero, or_and_or_and]

theorem encMAC_fields (s30 : BitVec 4) (w : InsnWord) :
    encMAC s30 (fieldA w) (fieldB w) =
      encMAC s30 0#_ 0#_ ||| (w &&& (fieldMask 16 5 ||| fieldMask 11 5)) := by
  simp only [encMAC, fieldA, fieldB, put_field, put_zero, BitVec.or_zero, or_and_or_and]

theorem encRI_fields (op : BitVec 6) (w : InsnWord) :
    encRI op (fieldD w) (fieldA w) (fieldI w) =
      encRI op 0#_ 0#_ 0#_ ||| (w &&& (fieldMask 21 5 ||| fieldMask 16 5 ||| fieldMask 0 16)) := by
  simp only [encRI, fieldD, fieldA, fieldI, put_field, put_zero, BitVec.or_zero, or_and_or_and]

theorem encRSH_fields (s76 : BitVec 2) (w : InsnWord) :
    encRSH s76 (fieldD w) (fieldA w) (field 0 6 w) =
      encRSH s76 0#_ 0#_ 0#_ ||| (w &&& (fieldMask 21 5 ||| fieldMask 16 5 ||| fieldMask 0 6)) := by
  simp only [encRSH, fieldD, fieldA, put_field, put_zero, BitVec.or_zero, or_and_or_and]

theorem encSF_fields (cond : BitVec 5) (w : InsnWord) :
    encSF cond (fieldA w) (fieldB w) =
      encSF cond 0#_ 0#_ ||| (w &&& (fieldMask 16 5 ||| fieldMask 11 5)) := by
  simp only [encSF, fieldA, fieldB, put_field, put_zero, BitVec.or_zero, or_and_or_and]

theorem encSFI_fields (cond : BitVec 5) (w : InsnWord) :
    encSFI cond (fieldA w) (fieldI w) =
      encSFI cond 0#_ 0#_ ||| (w &&& (fieldMask 16 5 ||| fieldMask 0 16)) := by
  simp only [encSFI, fieldA, fieldI, put_field, put_zero, BitVec.or_zero, or_and_or_and]

theorem encST_fields (op : BitVec 6) (w : InsnWord) :
    encST op (fieldA w) (fieldB w) (fieldSplit w) =
      encST op 0#_ 0#_ 0#_ ||| (w &&& (fieldMask 16 5 ||| fieldMask 11 5 ||| fieldMask 21 5 ||| fieldMask 0 11)) := by
  simp only [encST, fieldA, fieldB, fieldSplit_hi, fieldSplit_lo, put_field, put_zero,
    BitVec.extractLsb'_zero, BitVec.or_zero, or_and_or_and]

theorem encAI_fields (w : InsnWord) :
    encAI (fieldA w) (fieldI w) =
      encAI 0#_ 0#_ ||| (w &&& (fieldMask 16 5 ||| fieldMask 0 16)) := by
  simp only [encAI, fieldA, fieldI, put_field, put_zero, BitVec.or_zero, or_and_or_and]

theorem encHI_fields (w : InsnWord) :
    encHI (fieldD w) (fieldI w) =
      encHI 0#_ 0#_ ||| (w &&& (fieldMask 21 5 ||| fieldMask 0 16)) := by
  simp only [encHI, fieldD, fieldI, put_field, put_zero, BitVec.or_zero, or_and_or_and]

theorem encRC_fields (w : InsnWord) :
    encRC (fieldD w) =
      encRC 0#_ ||| (w &&& (fieldMask 21 5)) := by
  simp only [encRC, fieldD, put_field, put_zero, BitVec.or_zero]

theorem encK_fields (top : BitVec 16) (w : InsnWord) :
    encK top (fieldI w) =
      encK top 0#_ ||| (w &&& (fieldMask 0 16)) := by
  simp only [encK, fieldI, put_field, put_zero, BitVec.or_zero]

theorem encJ_fields (op : BitVec 6) (w : InsnWord) :
    encJ op (field 0 26 w) =
      encJ op 0#_ ||| (w &&& (fieldMask 0 26)) := by
  simp only [encJ, put_field, put_zero, BitVec.or_zero]

theorem encJR_fields (op : BitVec 6) (w : InsnWord) :
    encJR op (fieldB w) =
      encJR op 0#_ ||| (w &&& (fieldMask 11 5)) := by
  simp only [encJR, fieldB, put_field, put_zero, BitVec.or_zero]

theorem encCUST_fields (op : BitVec 6) (w : InsnWord) :
    encCUST op (field 0 26 w) =
      encCUST op 0#_ ||| (w &&& (fieldMask 0 26)) := by
  simp only [encCUST, put_field, put_zero, BitVec.or_zero]

theorem encCUST5_fields (w : InsnWord) :
    encCUST5 (fieldD w) (fieldA w) (fieldB w) (field 5 6 w) (field 0 5 w) =
      encCUST5 0#_ 0#_ 0#_ 0#_ 0#_ |||
        (w &&& (fieldMask 21 5 ||| fieldMask 16 5 ||| fieldMask 11 5 ||| fieldMask 5 6 ||| fieldMask 0 5)) := by
  simp only [encCUST5, fieldD, fieldA, fieldB, put_field, put_zero, BitVec.or_zero, or_and_or_and]

theorem encF3_fields (s70 : BitVec 8) (w : InsnWord) :
    encF3 s70 (fieldD w) (fieldA w) (fieldB w) =
      encF3 s70 0#_ 0#_ 0#_ ||| (w &&& (fieldMask 21 5 ||| fieldMask 16 5 ||| fieldMask 11 5)) := by
  simp only [encF3, fieldD, fieldA, fieldB, put_field, put_zero, BitVec.or_zero, or_and_or_and]

theorem encF2_fields (s70 : BitVec 8) (w : InsnWord) :
    encF2 s70 (fieldD w) (fieldA w) =
      encF2 s70 0#_ 0#_ ||| (w &&& (fieldMask 21 5 ||| fieldMask 16 5)) := by
  simp only [encF2, fieldD, fieldA, put_field, put_zero, BitVec.or_zero, or_and_or_and]

theorem encFC_fields (s70 : BitVec 8) (w : InsnWord) :
    encFC s70 (fieldA w) (fieldB w) =
      encFC s70 0#_ 0#_ ||| (w &&& (fieldMask 16 5 ||| fieldMask 11 5)) := by
  simp only [encFC, fieldA, fieldB, put_field, put_zero, BitVec.or_zero, or_and_or_and]

theorem encFCUST_fields (s74 : BitVec 4) (w : InsnWord) :
    encFCUST s74 (fieldA w) (fieldB w) (fieldFree w) =
      encFCUST s74 0#_ 0#_ 0#_ |||
        (w &&& (fieldMask 16 5 ||| fieldMask 11 5 ||| fieldMask 21 5 ||| fieldMask 8 3 ||| fieldMask 0 4)) := by
  simp only [encFCUST, fieldA, fieldB, fieldFree_hi, fieldFree_mid, fieldFree_lo, put_field, put_zero,
    BitVec.extractLsb'_zero, BitVec.or_zero, or_and_or_and]

theorem encV3_fields (s70 : BitVec 8) (w : InsnWord) :
    encV3 s70 (fieldD w) (fieldA w) (fieldB w) =
      encV3 s70 0#_ 0#_ 0#_ ||| (w &&& (fieldMask 21 5 ||| fieldMask 16 5 ||| fieldMask 11 5)) := by
  simp only [encV3, fieldD, fieldA, fieldB, put_field, put_zero, BitVec.or_zero, or_and_or_and]

theorem encVCUST_fields (s74 : BitVec 4) (w : InsnWord) :
    encVCUST s74 (field 8 18 w) (field 0 4 w) =
      encVCUST s74 0#_ 0#_ ||| (w &&& (fieldMask 8 18 ||| fieldMask 0 4)) := by
  simp only [encVCUST, put_field, put_zero, BitVec.or_zero, or_and_or_and]

/-- A format without operands. -/
theorem fixed_fields (x w : InsnWord) : x = x ||| (w &&& 0#32) := by rw [BitVec.and_zero, BitVec.or_zero]

/-! ### Rows -/

/-- The bits of a row that its operands fill. -/
def OpcodeRow.operandBits (r : OpcodeRow) : InsnWord := ~~~(r.mask ||| r.reserved)

/-- What a row's instruction is encoded as: the identifying bits, and the operands where the word had them. -/
def OpcodeRow.Faithful (r : OpcodeRow) : Prop := ∀ w, encode (r.build w) = r.pattern ||| (w &&& r.operandBits)

theorem opcodeRowsL1_faithful : ∀ r ∈ opcodeRowsL1, r.Faithful := by
  simp only [opcodeRowsL1, List.forall_mem_cons, List.not_mem_nil, false_implies, implies_true, and_true]
  exact ⟨encRRR_fields _ _, encRRR_fields _ _, encRI_fields _, encRI_fields _, encRRR_fields _ _, encRI_fields _,
    encJ_fields _, encJ_fields _, encRRR_fields _ _, fixed_fields _, encCUST_fields _, encCUST_fields _, encCUST_fields _,
    encCUST_fields _, encCUST5_fields, encCUST_fields _, encCUST_fields _, encCUST_fields _, encRRR_fields _ _,
    encRRR_fields _ _, encRR_fields _ _, encRR_fields _ _, encRR_fields _ _, encRR_fields _ _, encRR_fields _ _,
    encRR_fields _ _, encRRR_fields _ _, encRRR_fields _ _, encJ_fields _, encJ_fields _, encJR_fields _, encJR_fields _,
    encRI_fields _, encRI_fields _, encRI_fields _, encRI_fields _, encRI_fields _, encRI_fields _, encRI_fields _,
    encRI_fields _, encMAC_fields _, encAI_fields, encRC_fields, encMAC_fields _, encRI_fields _, encHI_fields,
    encMAC_fields _, encMAC_fields _, fixed_fields _, encST_fields _⟩

theorem opcodeRowsL2_faithful : ∀ r ∈ opcodeRowsL2, r.Faithful := by
  simp only [opcodeRowsL2, List.forall_mem_cons, List.not_mem_nil, false_implies, implies_true, and_true]
  exact ⟨encRRR_fields _ _, encRAB_fields _ _, encRAB_fields _ _, encRI_fields _, encRRR_fields _ _, encK_fields _,
    encRRR_fields _ _, encRI_fields _, fixed_fields _, fixed_fields _, encRRRs_fields _ _, encRSH_fields _, encST_fields _,
    encST_fields _, encSF_fields _, encSFI_fields _, encSF_fields _, encSFI_fields _, encSF_fields _, encSFI_fields _,
    encSF_fields _, encSFI_fields _, encSF_fields _, encSFI_fields _, encSF_fields _, encSFI_fields _, encSF_fields _,
    encSFI_fields _, encSF_fields _, encSFI_fields _, encSF_fields _, encSFI_fields _, encSF_fields _, encSFI_fields _,
    encST_fields _, encRRRs_fields _ _, encRSH_fields _, encRRRs_fields _ _, encRSH_fields _, encRRRs_fields _ _,
    encRSH_fields _, encRRR_fields _ _, encST_fields _, encST_fields _, encK_fields _, encK_fields _, encRRR_fields _ _,
    encRI_fields _⟩

theorem opcodeRowsLf_faithful : ∀ r ∈ opcodeRowsLf, r.Faithful := by
  simp only [opcodeRowsLf, List.forall_mem_cons, List.not_mem_nil, false_implies, implies_true, and_true]
  exact ⟨encF3_fields _, encF3_fields _, encFCUST_fields _, encFCUST_fields _, encF3_fields _, encF3_fields _,
    encF2_fields _, encF2_fields _, encF2_fields _, encF2_fields _, encF3_fields _, encF3_fields _, encF3_fields _,
    encF3_fields _, encF3_fields _, encF3_fields _, encFC_fields _, encFC_fields _, encFC_fields _, encFC_fields _,
    encFC_fields _, encFC_fields _, encFC_fields _, encFC_fields _, encFC_fields _, encFC_fields _, encFC_fields _,
    encFC_fields _, encF3_fields _, encF3_fields _⟩

theorem opcodeRowsLv1_faithful : ∀ r ∈ opcodeRowsLv1, r.Faithful := by
  simp only [opcodeRowsLv1, List.forall_mem_cons, List.not_mem_nil, false_implies, implies_true, and_true]
  and_intros <;> exact encV3_fields _

theorem opcodeRowsLv2_faithful : ∀ r ∈ opcodeRowsLv2, r.Faithful := by
  simp only [opcodeRowsLv2, List.forall_mem_cons, List.not_mem_nil, false_implies, implies_true, and_true]
  refine ⟨encV3_fields _, encVCUST_fields _, encVCUST_fields _, encVCUST_fields _, encVCUST_fields _, ?_⟩
  and_intros <;> exact encV3_fields _

theorem opcodeTable_faithful : ∀ r ∈ opcodeTable, r.Faithful := by
  simp only [opcodeTable, List.forall_mem_append]
  exact ⟨⟨⟨⟨opcodeRowsL1_faithful, opcodeRowsL2_faithful⟩, opcodeRowsLf_faithful⟩, opcodeRowsLv1_faithful⟩,
    opcodeRowsLv2_faithful⟩

theorem and_or_and_not_or {a b c : Bool} (h : (a && c) = false) : (a && b || a && !(b || c)) = a := by
  revert a b c; decide

/-- A word is put together of the identifying, the reserved and the operand bits of its row. -/
theorem word_split {w m r : InsnWord} (hr : w &&& r = 0#32) : (w &&& m) ||| (w &&& ~~~(m ||| r)) = w := by
  apply BitVec.eq_of_getLsbD_eq
  intro j hj
  have hbit : (w.getLsbD j && r.getLsbD j) = false := by rw [← BitVec.getLsbD_and, hr, BitVec.getLsbD_zero]
  simp only [BitVec.getLsbD_or, BitVec.getLsbD_and, BitVec.getLsbD_not, decide_eq_true hj, Bool.true_and]
  exact and_or_and_not_or hbit

theorem decodeWord_eq_instr {w : InsnWord} {i : Instr} (h : decodeWord w = .instr i) :
    ∃ r ∈ opcodeTable, w &&& r.mask = r.pattern ∧ w &&& r.reserved = 0#32 ∧ r.build w = i := by
  unfold decodeWord at h
  split at h
  · cases h
  · rename_i r hfound
    obtain ⟨hmem, hmask⟩ := findRow_some hfound
    split at h
    · exact ⟨r, hmem, hmask, eq_of_beq ‹_›, Decoded.instr.inj h⟩
    · cases h

theorem encode_of_decodeWord {w : InsnWord} {i : Instr} (h : decodeWord w = .instr i) : encode i = w := by
  obtain ⟨r, hmem, hmask, hreserved, rfl⟩ := decodeWord_eq_instr h
  rw [opcodeTable_faithful r hmem w, ← hmask, OpcodeRow.operandBits, word_split hreserved]

theorem row_unique {r q : OpcodeRow} {w : InsnWord} (hr : r ∈ opcodeTable) (hq : q ∈ opcodeTable) (hwr : w &&& r.mask = r.pattern)
    (hwq : w &&& q.mask = q.pattern) : r = q :=
  Option.some.inj ((findRow_of_mem hr hwr).symm.trans (findRow_of_mem hq hwq))

theorem opcodeTable_masks : ∀ r ∈ opcodeTable, r.mask &&& r.reserved = 0#32 ∧ r.pattern &&& r.mask = r.pattern := by
  decide +kernel

end Sys2Proof

/-- Settles O1, by the law of each instruction (`decodeWord_encode`). -/
theorem decodeEncodeAgree : Obligations.DecodeEncodeAgree := by
  unfold Obligations.DecodeEncodeAgree
  exact decode_encodeBytes

/-- Settles O2: the row a word matches gives its identifying bits back, and its operand bits (`opcodeTable_faithful`); the
others are zero. -/
theorem encodeDecodeAgree : Obligations.EncodeDecodeAgree := by
  unfold Obligations.EncodeDecodeAgree
  exact fun w i h => encode_of_decodeWord h

/-- Settles O3: two rows that a word matches are the row the decoder finds. -/
theorem opcodeRowsDisjoint : Obligations.OpcodeRowsDisjoint := by
  unfold Obligations.OpcodeRowsDisjoint
  exact ⟨fun w r hr q hq hwr hwq => congrArg _ (row_unique hr hq hwr hwq), opcodeTable_masks⟩

/-- Settles O4: the words are those of the instructions (`decode_of_encodeBytes`). -/
theorem sampleWordsDecode : Obligations.SampleWordsDecode := by
  unfold Obligations.SampleWordsDecode
  and_intros <;> exact decode_of_encodeBytes (by decide)

end

section
/-! PROOFS. User mode (O15): what an instruction may write there, how it may leave it, and each instruction by its ending. -/

open Sys2Proof Sys2Proof.Machine

namespace Sys2Proof.Machine

variable {s t u : State} {k o : Outcome}

/-! ### What an instruction may write in user mode -/

/-- The parts of the state that an instruction executed in user mode writes without an exception: the general registers, the three
flags, the accumulators, FPCSR, the reservation and memory. -/
def userParts : List Part :=
  [.sr srF, .sr srCY, .sr srOV, .machi, .maclo, .fpcsr, .fpmadd, .vmac, .resv, .mem, .stale, .draws] ++
    (List.finRange 32).map fun r => .reg (.ofFin r)

theorem reg_mem_userParts (r : RegNum) : .reg r ∈ userParts := by
  simp only [userParts, List.mem_append, List.mem_map, List.mem_finRange, true_and]
  exact .inr ⟨r.toFin, rfl⟩

theorem sr_mem_userParts {j : Nat} : .sr j ∈ userParts ↔ j = srF ∨ j = srCY ∨ j = srOV := by simp [userParts]

/-- `u` is `s` after writes that an instruction may do in user mode. -/
def UserFrame (s u : State) : Prop := Frame userParts s u

theorem UserFrame.refl (s : State) : UserFrame s s := Frame.refl _ s

theorem UserFrame.srBit (h : UserFrame s u) {j : Nat} (hF : j ≠ srF) (hCY : j ≠ srCY) (hOV : j ≠ srOV) :
    u.srBit j = s.srBit j := by
  obtain ⟨-, -, -, hsr, -⟩ := h
  exact hsr j fun hj => by obtain rfl | rfl | rfl := sr_mem_userParts.1 hj <;> contradiction

theorem UserFrame.supervisor (h : UserFrame s u) : u.supervisor = s.supervisor := h.srBit (by decide) (by decide) (by decide)

theorem UserFrame.advance (h : UserFrame s u) : UserFrame s u.advance := Frame.advance h
theorem UserFrame.takeJump (h : UserFrame s u) (x : BitVec 64) : UserFrame s (u.takeJump x) := Frame.takeJump h x
theorem UserFrame.setReg (h : UserFrame s u) (r : RegNum) {n : Nat} (v : BitVec n) : UserFrame s (u.setReg r v) :=
  Frame.setReg h r v (reg_mem_userParts r)
theorem UserFrame.setF (h : UserFrame s u) (b : Bool) : UserFrame s (u.setF b) := Frame.setSrBit h srF b (by simp [userParts])
theorem UserFrame.setCY (h : UserFrame s u) (b : Bool) : UserFrame s (u.setCY b) := Frame.setSrBit h srCY b (by simp [userParts])
theorem UserFrame.setOV (h : UserFrame s u) (b : Bool) : UserFrame s (u.setOV b) := Frame.setSrBit h srOV b (by simp [userParts])
theorem UserFrame.spend (h : UserFrame s u) : UserFrame s u.spend := Frame.spend h (by simp [userParts])
theorem UserFrame.setAcc (h : UserFrame s u) (v : BitVec 64) : UserFrame s (u.setAcc v) :=
  Frame.setAcc h v (by simp [userParts]) (by simp [userParts])
theorem UserFrame.setFpcsr (h : UserFrame s u) (v : BitVec 32) : UserFrame s { u with fpcsr := v } :=
  Frame.setFpcsr h v (by simp [userParts])
theorem UserFrame.setResv (h : UserFrame s u) (r : Option Nat) : UserFrame s { u with resv := r } :=
  Frame.setResv h r (by simp [userParts])
theorem UserFrame.syncFetch (h : UserFrame s u) : UserFrame s (syncFetch u) := Frame.syncFetch h (by simp [userParts])
theorem UserFrame.storeDatum (h : UserFrame s u) (pa n v : Nat) : UserFrame s (storeDatum u pa n v) :=
  Frame.storeDatum h pa n v (by simp [userParts]) (by simp [userParts]) (by simp [userParts])
theorem UserFrame.setFpmadd (h : UserFrame s u) (a b : BitVec 32) : UserFrame s { u with fpmaddhi := a, fpmaddlo := b } :=
  Frame.trans h (by simp [Frame, State.srBit, userParts])
theorem UserFrame.setVmac (h : UserFrame s u) (a b : BitVec 64) : UserFrame s { u with vmachi := a, vmaclo := b } :=
  Frame.trans h (by simp [Frame, State.srBit, userParts])

/-! ### How an instruction may end in user mode -/

/-- The exceptions an instruction can raise once it is fetched (R500). -/
def Exc.ofInstruction (e : Exc) : Bool :=
  match e with
  | .reset => false
  | .insnPageFault _ => false
  | .tickTimer => false
  | .externalInterrupt => false
  | .itlbMiss _ => false
  | _ => true

/-- The outcome is not a next state, or one that an instruction executed in user mode in `s` may lead to: in user mode still, or
by an exception, raised when AESR may have been written (R503). -/
def Confined (s : State) (o : Outcome) : Prop :=
  ∀ t, o = .next t →
    UserFrame s t ∨ ∃ u e, Frame (.aesr :: userParts) s u ∧ Exc.ofInstruction e = true ∧ t = enter u e

theorem confined_next (h : UserFrame s u) : Confined s (.next u) := by
  rintro t ⟨⟩
  exact .inl h

theorem confined_refused (r : Refusal) : Confined s (.refused r) := by rintro t ⟨⟩

theorem confined_finish (h : UserFrame s u) : Confined s (finish u) := confined_next h.advance

theorem confined_raiseOf (h : Frame (.aesr :: userParts) s u) {e : Exc} (he : Exc.ofInstruction e = true) :
    Confined s (raise u e) := fun _ ht => .inr ⟨u, e, h, he, raise_next ht⟩

theorem confined_raise (h : UserFrame s u) {e : Exc} (he : Exc.ofInstruction e = true) : Confined s (raise u e) :=
  confined_raiseOf (h.mono fun _ hp => List.mem_cons_of_mem _ hp) he

theorem confined_illegal (h : UserFrame s u) : Confined s (raise u .illegalInstruction) := confined_raise h rfl

theorem confined_whenPresent (p : Bool) (hk : Confined s k) : Confined s (whenPresent p s k) := by
  unfold whenPresent
  split
  · exact hk
  · exact confined_illegal (.refl s)

theorem confined_outsideSlot (hk : Confined s k) : Confined s (outsideSlot u k) := by
  unfold outsideSlot
  split
  · exact confined_refused _
  · exact hk

/-- In user mode what is privileged is not done (R288). -/
theorem confined_privileged (hs : s.supervisor = false) (h : UserFrame s u) (ho : Confined s o) :
    Confined s (privileged u o k) := by
  unfold privileged
  rw [h.supervisor, hs]
  simp only [Bool.false_eq_true, if_false]
  split
  · exact confined_illegal h
  · exact ho
  · exact confined_refused _

theorem confined_arithEvent (h : UserFrame s u) (ev : BitVec 7) : Confined s (arithEvent u ev) := by
  have haesr : ∀ v, Frame (.aesr :: userParts) s { u with aesr := v } := fun v =>
    (h.mono fun _ hp => List.mem_cons_of_mem _ hp).setAesr v (List.mem_cons_self ..)
  unfold arithEvent
  dsimp only
  split
  · split
    · exact confined_raiseOf (haesr _) rfl
    · exact confined_raise h rfl
  · exact confined_finish h

theorem confined_accessError (h : UserFrame s u) {a : AccessKind} {n : Nat} {ea : BitVec 64} {e : Exc}
    (he : access u a n ea = .error e) (ha : a ≠ .fetch) : Confined s (raise u e) := by
  obtain rfl | rfl | rfl | rfl := access_error he ha <;> exact confined_raise h rfl

/-! ### Shared endings -/

theorem confined_regResult (s : State) (rD : RegNum) (v : BitVec s.width) : Confined s (regResult s rD v) :=
  confined_finish (.setReg (.refl s) rD v)

theorem confined_whenPresentRegResult (s : State) (p : Bool) (rD : RegNum) (v : BitVec s.width) :
    Confined s (whenPresent p s (regResult s rD v)) := confined_whenPresent p (confined_regResult s rD v)

theorem confined_addArith (s : State) (rD : RegNum) (r : AddResult s.width) : Confined s (addArith s rD r) :=
  confined_arithEvent (((UserFrame.refl s).setReg rD r.res).setCY r.cy |>.setOV r.ov) _

theorem confined_mulArith (s : State) (rD : RegNum) (r : BitVec s.width × Bool) : Confined s (mulArith s rD r) :=
  confined_arithEvent (((UserFrame.refl s).setReg rD r.1).setOV r.2) _

theorem confined_execLMulu (s : State) (rD rA rB : RegNum) : Confined s (execLMulu rD rA rB s) :=
  confined_whenPresent _ (confined_arithEvent (((UserFrame.refl s).setReg rD _).setCY _) _)

theorem confined_execLDiv (s : State) (rD rA rB : RegNum) : Confined s (execLDiv rD rA rB s) := by
  refine confined_whenPresent _ ?_
  have hr : ∀ v : BitVec s.width, UserFrame s (s.setReg rD v) := fun v => (UserFrame.refl s).setReg rD v
  split_ifs
  · exact confined_arithEvent ((hr _).setOV true).spend _
  · exact confined_finish ((hr _).setOV false).spend
  · exact confined_finish ((hr _).setOV false)

theorem confined_execLDivu (s : State) (rD rA rB : RegNum) : Confined s (execLDivu rD rA rB s) := by
  refine confined_whenPresent _ ?_
  have hr : ∀ v : BitVec s.width, UserFrame s (s.setReg rD v) := fun v => (UserFrame.refl s).setReg rD v
  split_ifs
  · exact confined_arithEvent ((hr _).setCY true).spend _
  · exact confined_finish ((hr _).setCY false)

theorem confined_setFlag (s : State) (b : Bool) : Confined s (setFlag s b) := confined_finish ((UserFrame.refl s).setF b)

theorem confined_jump (s : State) (x : BitVec 64) : Confined s (outsideSlot s (.next (s.takeJump x))) :=
  confined_outsideSlot (confined_next ((UserFrame.refl s).takeJump x))

theorem confined_branchIf (s : State) (taken : Bool) (n : BitVec 26) : Confined s (branchIf s taken n) := by
  refine confined_outsideSlot ?_
  split
  · exact confined_next ((UserFrame.refl s).takeJump _)
  · exact confined_finish (.refl s)

theorem confined_jumpAndLink (s : State) (x : BitVec 64) : Confined s (jumpAndLink s x) :=
  confined_outsideSlot (confined_next (((UserFrame.refl s).setReg linkReg _).takeJump x))

theorem confined_execLJalr (s : State) (rB : RegNum) : Confined s (execLJalr rB s) := by
  unfold execLJalr
  split
  · exact confined_refused _
  · exact confined_jumpAndLink s _

theorem confined_loadOp (s : State) (n : Nat) (sign : Bool) (rD rA : RegNum) (imm : BitVec 16) :
    Confined s (loadOp n sign s rD rA imm) := by
  unfold loadOp
  split
  · exact confined_accessError (.refl s) ‹_› (by decide)
  · exact confined_finish ((UserFrame.refl s).setReg rD _)

theorem confined_storeOp (s : State) (n : Nat) (rA rB : RegNum) (imm : BitVec 16) : Confined s (storeOp n s rA rB imm) := by
  unfold storeOp
  split
  · exact confined_accessError (.refl s) ‹_› (by decide)
  · exact confined_finish ((UserFrame.refl s).storeDatum _ _ _)

theorem confined_execLLwa (s : State) (rD rA : RegNum) (imm : BitVec 16) : Confined s (execLLwa rD rA imm s) := by
  refine confined_whenPresent _ ?_
  split
  · exact confined_accessError (.refl s) ‹_› (by decide)
  · exact confined_finish (((UserFrame.refl s).setReg rD _).setResv _)

theorem confined_execLSwa (s : State) (rA rB : RegNum) (imm : BitVec 16) : Confined s (execLSwa rA rB imm s) := by
  refine confined_whenPresent _ ?_
  split
  · exact confined_accessError (.refl s) ‹_› (by decide)
  · split
    · exact confined_finish ((((UserFrame.refl s).storeDatum _ _ _).setF true).setResv none)
    · exact confined_finish (((UserFrame.refl s).setF false).setResv none)

theorem confined_macSigned (s : State) (r : BitVec 64 × Bool) : Confined s (macSigned s r) :=
  confined_whenPresent _ (confined_arithEvent (((UserFrame.refl s).setAcc r.1).setOV r.2) _)

theorem confined_macUnsigned (s : State) (r : BitVec 64 × Bool) : Confined s (macUnsigned s r) :=
  confined_whenPresent _ (confined_arithEvent (((UserFrame.refl s).setAcc r.1).setCY r.2) _)

theorem confined_execLMacrc (s : State) (rD : RegNum) : Confined s (execLMacrc rD s) :=
  confined_whenPresent _ (confined_finish (((UserFrame.refl s).setReg rD _).setAcc 0#64))

theorem confined_execLMuld (s : State) (rA rB : RegNum) : Confined s (execLMuld rA rB s) := by
  refine confined_whenPresent _ ?_
  dsimp only
  split
  · exact confined_finish ((UserFrame.refl s).setAcc _)
  · exact confined_arithEvent (((UserFrame.refl s).setAcc _).setOV _) _

theorem confined_execLMuldu (s : State) (rA rB : RegNum) : Confined s (execLMuldu rA rB s) := by
  refine confined_whenPresent _ ?_
  dsimp only
  split
  · exact confined_finish ((UserFrame.refl s).setAcc _)
  · exact confined_arithEvent (((UserFrame.refl s).setAcc _).setCY _) _

/-! ### System and custom instructions -/

theorem confined_execLSys (s : State) (imm : BitVec 16) : Confined s (execLSys imm s) := by
  unfold execLSys
  split
  · exact confined_refused _
  · exact confined_raise (.refl s) rfl

theorem confined_execLTrap (s : State) (imm : BitVec 16) : Confined s (execLTrap imm s) := by
  unfold execLTrap
  split
  · exact confined_refused _
  · exact confined_raise (.refl s) rfl

/-- One thing a custom instruction does in user mode; a special register is written as the policy says, which is not at all
(R288). -/
theorem confined_customWrite (hs : s.supervisor = false) (h : UserFrame s u) (x : CustomWrite) {k : State → Outcome}
    (hk : ∀ t, UserFrame s t → Confined s (k t)) : Confined s (customWrite u x k) := by
  cases x <;> simp only [customWrite]
  case reg r v => exact hk _ (h.setReg r _)
  case flagF b => exact hk _ (h.setF b)
  case flagCY b => exact hk _ (h.setCY b)
  case flagOV b => exact hk _ (h.setOV b)
  case acc v => exact hk _ (h.setAcc v)
  case fpFlags fl => exact hk _ (h.setFpcsr _)
  case fpmadd v => exact hk _ (h.setFpmadd _ _)
  case vmac hi lo => exact hk _ (h.setVmac hi lo)
  case spr a v => exact confined_privileged hs h (hk u h)
  case load ea size =>
    split
    · exact hk u h
    · exact confined_accessError h ‹_› (by decide)
  case store ea size v =>
    split
    · exact hk _ (h.storeDatum _ _ _)
    · exact confined_accessError h ‹_› (by decide)

theorem confined_customEnd (h : UserFrame s u) (e : CustomEnd) : Confined s (customEnd u e) := by
  cases e with
  | advance => exact confined_finish h
  | jump x => exact confined_outsideSlot (confined_next (h.takeJump _))
  | raise x => exact confined_raise h (by cases x <;> rfl)

theorem confined_customRun (hs : s.supervisor = false) (ws : List CustomWrite) (e : CustomEnd) :
    ∀ u, UserFrame s u → Confined s (customRun ws e u) := by
  induction ws with
  | nil => exact fun u h => confined_customEnd h e
  | cons x rest ih => exact fun u h => confined_customWrite hs h x ih

theorem confined_customAct (hs : s.supervisor = false) (a : CustomAction) : Confined s (customAct a s) := by
  cases a with
  | refuse => exact confined_refused _
  | run ws e => exact confined_customRun hs ws e s (.refl s)

theorem confined_customOp (hs : s.supervisor = false) (x : InsnWord) : Confined s (customOp x s) := by
  unfold customOp
  split
  · exact confined_refused _
  · exact confined_illegal (.refl s)
  · exact confined_finish (.refl s)
  · exact confined_finish ((UserFrame.refl s).setReg _ _)
  · exact confined_customAct hs _

theorem confined_unitCustom (hs : s.supervisor = false) (m : String) (reserved : InsnWord) (p : Bool) (x : InsnWord) :
    Confined s (unitCustom m reserved p x s) := by
  obtain ⟨-, he⟩ | ⟨-, -, he⟩ | ⟨-, -, he⟩ := unitCustom_cases m reserved p x s <;> rw [he]
  · exact confined_refused _
  · exact confined_illegal (.refl s)
  · exact confined_customOp hs x

/-! ### Floating point and vectors -/

theorem confined_fpDone (h : UserFrame s u) (fl : BitVec 9) : Confined s (fpDone u fl) := by
  unfold fpDone
  dsimp only
  split
  · exact confined_raise (h.setFpcsr _) rfl
  · exact confined_finish (h.setFpcsr _)

theorem confined_fpResult (s : State) (rD : RegNum) (r : FpResult) : Confined s (fpResult s rD r) := by
  have hreg := (UserFrame.refl s).setReg rD (BitVec.ofNat 64 r.bits)
  unfold fpResult
  refine confined_fpDone ?_ r.flags
  split
  · exact hreg.spend
  · exact hreg

theorem confined_fpCompareOp (s : State) (f : FpFormat) (holds : FpOrder → Bool) (rA rB : RegNum) :
    Confined s (fpCompareOp f holds s rA rB) := by
  unfold fpCompareOp
  dsimp only
  split
  · exact confined_finish (((UserFrame.refl s).setF _).setFpcsr _)
  · exact confined_finish ((UserFrame.refl s).setF _)

theorem confined_fpMaddOp (s : State) : Confined s (fpMaddOp s) := by
  unfold fpMaddOp
  split
  · exact confined_refused _
  · exact confined_illegal (.refl s)
  · exact confined_fpDone ((UserFrame.refl s).spend.setFpmadd _ _).spend _

theorem confined_vecResult (s : State) (rD : RegNum) (v : BitVec 64) : Confined s (vecResult s rD v) :=
  confined_whenPresent _ (confined_finish ((UserFrame.refl s).setReg rD v))

theorem confined_vecFlag (s : State) (rD : RegNum) (flag : Bool) : Confined s (vecFlag s rD flag) := by
  refine confined_whenPresent _ ?_
  dsimp only
  split
  · exact confined_finish (((UserFrame.refl s).setReg rD _).setF flag)
  · exact confined_finish ((UserFrame.refl s).setReg rD _)

theorem confined_vecWholeShift (s : State) (rD : RegNum) (v : BitVec 64) : Confined s (vecWholeShift s rD v) := by
  refine confined_whenPresent _ ?_
  split
  · exact confined_finish ((UserFrame.refl s).setReg rD v)
  · exact confined_refused _
  · exact confined_illegal (.refl s)

/-- The accumulators of the packed multiplications, written one after the other (R430, R437). -/
theorem UserFrame.setVmachi (h : UserFrame s u) (a : BitVec 64) : UserFrame s { u with vmachi := a } := h.setVmac a u.vmaclo
theorem UserFrame.setVmaclo (h : UserFrame s u) (a : BitVec 64) : UserFrame s { u with vmaclo := a } := h.setVmac u.vmachi a

theorem confined_vecMacOp (s : State) (rD : RegNum) : Confined s (vecMacOp s rD) := by
  refine confined_whenPresent _ ?_
  split
  · exact confined_refused _
  · exact confined_illegal (.refl s)
  · exact confined_finish (((((UserFrame.refl s).setReg rD _).spend.setVmachi _).spend.setVmaclo _).spend)

/-! ### Every instruction, by its ending -/

theorem confined_exec (hs : s.supervisor = false) (i : Instr) : Confined s (exec i s) := by
  cases i with
  | lAdd | lAddc | lAddi | lAddic | lSub => exact confined_addArith s _ _
  | lAnd | lAndi | lMovhi | lOr | lOri | lSll | lSlli | lSra | lSrai | lSrl | lSrli | lXor | lXori =>
    exact confined_regResult s _ _
  | lCmov | lFf1 | lFl1 | lRor | lRori | lExtbs | lExtbz | lExths | lExthz | lExtws | lExtwz =>
    exact confined_whenPresentRegResult s _ _ _
  | lMul | lMuli => exact confined_whenPresent _ (confined_mulArith s _ _)
  | lMulu => exact confined_execLMulu s _ _ _
  | lDiv => exact confined_execLDiv s _ _ _
  | lDivu => exact confined_execLDivu s _ _ _
  | lSfeq | lSfeqi | lSfges | lSfgesi | lSfgeu | lSfgeui | lSfgts | lSfgtsi | lSfgtu | lSfgtui | lSfles | lSflesi | lSfleu
  | lSfleui | lSflts | lSfltsi | lSfltu | lSfltui | lSfne | lSfnei => exact confined_setFlag s _
  | lBf | lBnf => exact confined_branchIf s _ _
  | lJ | lJr => exact confined_jump s _
  | lJal => exact confined_jumpAndLink s _
  | lJalr rB => exact confined_execLJalr s rB
  | lLbs | lLbz | lLhs | lLhz | lLws | lLwz => exact confined_loadOp s _ _ _ _ _
  | lLd => exact confined_whenPresent _ (confined_loadOp s _ _ _ _ _)
  | lSb | lSh | lSw => exact confined_storeOp s _ _ _ _
  | lSd => exact confined_whenPresent _ (confined_storeOp s _ _ _ _)
  | lLwa => exact confined_execLLwa s _ _ _
  | lSwa => exact confined_execLSwa s _ _ _
  | lMac | lMaci | lMsb => exact confined_macSigned s _
  | lMacu | lMsbu => exact confined_macUnsigned s _
  | lMacrc => exact confined_execLMacrc s _
  | lMuld => exact confined_execLMuld s _ _
  | lMuldu => exact confined_execLMuldu s _ _
  | lNop | lMsync => exact confined_finish (.refl s)
  | lCsync | lPsync => exact confined_finish (UserFrame.refl s).syncFetch
  | lMfspr => exact confined_privileged hs (.refl s) (confined_finish ((UserFrame.refl s).setReg _ _))
  | lMtspr | lRfe => exact confined_privileged hs (.refl s) (confined_finish (.refl s))
  | lSys imm => exact confined_execLSys s imm
  | lTrap imm => exact confined_execLTrap s imm
  | lCust1 | lCust2 | lCust3 | lCust4 | lCust5 | lCust6 | lCust7 | lCust8 => exact confined_customOp hs _
  | lfCust1D | lfCust1S | lvCust1 | lvCust2 | lvCust3 | lvCust4 => exact confined_unitCustom hs _ _ _ _
  | lfAddS | lfSubS | lfMulS | lfDivS | lfRemS | lfAddD | lfSubD | lfMulD | lfDivD | lfRemD | lfFtoiS | lfItofS | lfFtoiD
  | lfItofD => exact confined_whenPresent _ (confined_fpResult s _ _)
  | lfMaddD | lfMaddS => exact confined_whenPresent _ (confined_fpMaddOp s)
  | lfSfeqD | lfSfeqS | lfSfgeD | lfSfgeS | lfSfgtD | lfSfgtS | lfSfleD | lfSfleS | lfSfltD | lfSfltS | lfSfneD | lfSfneS =>
    exact confined_whenPresent _ (confined_fpCompareOp s _ _ _ _)
  | lvAllEqB | lvAllEqH | lvAllGeB | lvAllGeH | lvAllGtB | lvAllGtH | lvAllLeB | lvAllLeH | lvAllLtB | lvAllLtH | lvAllNeB
  | lvAllNeH | lvAnyEqB | lvAnyEqH | lvAnyGeB | lvAnyGeH | lvAnyGtB | lvAnyGtH | lvAnyLeB | lvAnyLeH | lvAnyLtB | lvAnyLtH
  | lvAnyNeB | lvAnyNeH => exact confined_vecFlag s _ _
  | lvSll | lvSrl => exact confined_vecWholeShift s _ _
  | lvMaddsH | lvMsubsH => exact confined_vecMacOp s _
  -- what is left is the packed instructions that write one register
  | _ => exact confined_vecResult s _ _

/-! ### What follows from confinement -/

/-- The rows of the exceptions an instruction can raise (R500). -/
def instructionRows (c : Config) : List ExcEntry :=
  [c.exceptions.busError, c.exceptions.dataPageFault, c.exceptions.alignment, c.exceptions.illegalInstruction,
    c.exceptions.dtlbMiss, c.exceptions.range, c.exceptions.systemCall, c.exceptions.floatingPoint, c.exceptions.trap]

theorem excEntry_mem_instructionRows {e : Exc} (he : Exc.ofInstruction e = true) (c : Config) :
    excEntry c e ∈ instructionRows c := by
  cases e with
  | reset | insnPageFault | tickTimer | externalInterrupt | itlbMiss => cases he
  | busError | dataPageFault | alignment | illegalInstruction | dtlbMiss | range | systemCall | floatingPoint | trap =>
    simp only [instructionRows, excEntry, List.mem_cons, true_or, or_true]

/-- The vector of an offset depends on EPH, EVBAR and the configuration alone (R506). -/
theorem vectorOf_congr (hc : u.cfg = s.cfg) (heph : u.srBit srEPH = s.srBit srEPH) (hbase : u.evbar = s.evbar) (n : Nat) :
    vectorOf u n = vectorOf s n := by
  rw [vectorOf, vectorOf, hc, heph, hbase]

/-- What an instruction that stays in user mode leaves alone (R518, R521). -/
theorem UserFrame.kept (h : UserFrame s t) :
    t.evbar = s.evbar ∧ t.aecr = s.aecr ∧ t.cfg = s.cfg ∧ t.inputs = s.inputs ∧
      t.epcr = s.epcr ∧ t.esr = s.esr ∧ t.eear = s.eear ∧ t.aesr = s.aesr := by
  obtain ⟨hcfg, hinputs, -, -, hepcr, hesr, heear, hevbar, haecr, haesr, -⟩ := h
  exact ⟨hevbar (by simp [userParts]), haecr (by simp [userParts]), hcfg, hinputs, hepcr (by simp [userParts]),
    hesr (by simp [userParts]), heear (by simp [userParts]), haesr (by simp [userParts])⟩

/-- An exception raised by an instruction executed in user mode: ESR tells user mode, and execution goes on at a vector
(R507). -/
theorem entered_from_user (hs : s.supervisor = false) (h : Frame (.aesr :: userParts) s u) {e : Exc}
    (he : Exc.ofInstruction e = true) (ht : t = enter u e) :
    t.evbar = s.evbar ∧ t.aecr = s.aecr ∧ t.cfg = s.cfg ∧ t.inputs = s.inputs ∧ t.supervisor = true ∧
      t.esr.getLsbD srSM = false ∧ t.resv = none ∧ t.ds = none ∧
      ∃ x ∈ instructionRows s.cfg, t.pc.toNat = vectorOf s x.offset.toNat := by
  subst ht
  obtain ⟨hcfg, hinputs, -, hsr, -, -, -, hevbar, haecr, -⟩ := h
  have hbase : u.evbar = s.evbar := hevbar (by simp [userParts])
  have hsm : u.srBit srSM = s.srBit srSM := hsr _ (by simp [userParts, srSM, srF, srCY, srOV])
  have heph : u.srBit srEPH = s.srBit srEPH := hsr _ (by simp [userParts, srEPH, srF, srCY, srOV])
  obtain ⟨-, hesr, -, hpc, -, hds, hresv, hsup, -⟩ := enters_enter u e
  refine ⟨hbase, haecr (by simp [userParts]), hcfg, hinputs, hsup, ?_, hresv, hds, excEntry s.cfg e,
    excEntry_mem_instructionRows he s.cfg, ?_⟩
  · rw [hesr]
    exact hsm.trans hs
  · rw [hpc, hcfg, vectorOf_congr hcfg heph hbase]

end Sys2Proof.Machine

/-- Settles O15: each instruction is confined by its ending (`confined_exec`): it stays in the frame of user mode, or it enters an
exception from that frame. -/
theorem userModeIsConfined : Obligations.UserModeIsConfined := by
  unfold Obligations.UserModeIsConfined
  intro i s t hs ht
  obtain hframe | ⟨u, e, hframe, he, hentered⟩ := confined_exec hs i t ht
  · obtain ⟨hevbar, haecr, hcfg, hinputs, hsaved⟩ := hframe.kept
    refine ⟨hevbar, haecr, hcfg, hinputs, fun _ => ⟨fun k hF hCY hOV => hframe.srBit hF hCY hOV, hsaved⟩, fun hsup => ?_⟩
    rw [hframe.supervisor, hs] at hsup
    cases hsup
  · obtain ⟨hevbar, haecr, hcfg, hinputs, hsup, hentry⟩ := entered_from_user hs hframe he hentered
    refine ⟨hevbar, haecr, hcfg, hinputs, fun hno => ?_, fun _ => hentry⟩
    rw [hsup] at hno
    cases hno

end

section
/-! PROOFS. Instructions a configuration may lack (O49), the custom instructions (O48), and the words that are no instruction
(O5). -/

open Sys2Proof Sys2Proof.Machine

namespace Sys2Proof.Machine

variable {s u : State} {i : Instr} {w : InsnWord}

/-! ### Absent units -/

/-- The instruction asks for its unit before anything else (R113). -/
def AsksFor (unit : Bool) (s : State) (i : Instr) : Prop := ∃ k, exec i s = whenPresent unit s k

theorem AsksFor.raisesIllegal {unit : Bool} (h : AsksFor unit s i) (hu : unit = false) : RaisesIllegal i s := by
  obtain ⟨k, hk⟩ := h
  exact raisesIllegal_of_exec (hk.trans (whenPresent_false hu k))

theorem singleInstrs_askForUnit (s : State) (rD rA rB : RegNum) :
    ∀ i ∈ singleInstrs rD rA rB, AsksFor (hasSingle s.cfg) s i := by
  simp only [singleInstrs, List.forall_mem_cons, List.not_mem_nil, false_implies, implies_true, and_true]
  and_intros <;> exact ⟨_, rfl⟩

theorem doubleInstrs_askForUnit (s : State) (rD rA rB : RegNum) :
    ∀ i ∈ doubleInstrs rD rA rB, AsksFor (hasDouble s.cfg) s i := by
  simp only [doubleInstrs, List.forall_mem_cons, List.not_mem_nil, false_implies, implies_true, and_true]
  and_intros <;> exact ⟨_, rfl⟩

theorem vectorInstrs_askForUnit (s : State) (rD rA rB : RegNum) :
    ∀ i ∈ vectorInstrs rD rA rB, AsksFor (hasVector s.cfg) s i := by
  simp only [vectorInstrs, List.forall_mem_cons, List.not_mem_nil, false_implies, implies_true, and_true]
  and_intros <;> exact ⟨_, rfl⟩

theorem mulInstrs_askForUnit (s : State) (rD rA rB : RegNum) (imm : BitVec 16) :
    ∀ i ∈ ([.lMul rD rA rB, .lMuli rD rA imm, .lMulu rD rA rB] : List Instr), AsksFor s.cfg.hasMul s i := by
  simp only [List.forall_mem_cons, List.not_mem_nil, false_implies, implies_true, and_true]
  and_intros <;> exact ⟨_, rfl⟩

theorem divInstrs_askForUnit (s : State) (rD rA rB : RegNum) :
    ∀ i ∈ ([.lDiv rD rA rB, .lDivu rD rA rB] : List Instr), AsksFor s.cfg.hasDiv s i := by
  simp only [List.forall_mem_cons, List.not_mem_nil, false_implies, implies_true, and_true]
  and_intros <;> exact ⟨_, rfl⟩

theorem macInstrs_askForUnit (s : State) (rD rA rB : RegNum) (imm : BitVec 16) :
    ∀ i ∈ ([.lMac rA rB, .lMaci rA imm, .lMacrc rD, .lMacu rA rB, .lMsb rA rB, .lMsbu rA rB, .lMuld rA rB,
        .lMuldu rA rB] : List Instr),
      AsksFor s.cfg.hasMac s i := by
  simp only [List.forall_mem_cons, List.not_mem_nil, false_implies, implies_true, and_true]
  and_intros <;> exact ⟨_, rfl⟩

theorem extInstrs_askForUnit (s : State) (rD rA : RegNum) :
    ∀ i ∈ ([.lExtbs rD rA, .lExtbz rD rA, .lExths rD rA, .lExthz rD rA, .lExtws rD rA, .lExtwz rD rA] : List Instr),
      AsksFor s.cfg.hasExt s i := by
  simp only [List.forall_mem_cons, List.not_mem_nil, false_implies, implies_true, and_true]
  and_intros <;> exact ⟨_, rfl⟩

/-- A unit of 64-bit registers is absent where it is not configured or the registers have 32 bits. -/
theorem unit64_absent {c : Config} {unit : Bool} (h : unit = false ∨ c.xlen = .x32) : (unit && c.xlen == .x64) = false := by
  rcases h with h | h <;> simp [h]

/-! ### Custom instructions -/

/-- A custom instruction outside the optional units has no reserved bits and is always present (R114). -/
theorem unitCustom_unreserved (m : String) (x : InsnWord) (s : State) : unitCustom m 0#32 true x s = customOp x s := by
  simp [unitCustom, whenUnreserved, whenPresent]

theorem unitCustom_reserved {m : String} {reserved x : InsnWord} (h : x &&& reserved ≠ 0#32) (p : Bool) (s : State) :
    unitCustom m reserved p x s = .refused (.reservedBits m) := if_neg h

theorem unitCustom_absent {reserved x : InsnWord} (h : x &&& reserved = 0#32) {p : Bool} (hp : p = false) (m : String)
    (s : State) :
    unitCustom m reserved p x s = raise s .illegalInstruction :=
  (if_pos h).trans (whenPresent_false hp _)

theorem unitCustom_present {reserved x : InsnWord} (h : x &&& reserved = 0#32) {p : Bool} (hp : p = true) (m : String)
    (s : State) :
    unitCustom m reserved p x s = customOp x s :=
  (if_pos h).trans (whenPresent_true hp _)

/-- The custom instructions, each with the name of its row, the bits that must be zero, and whether it is present. -/
def customInstrs (c : Config) (rD rA rB : RegNum) (x : BitVec 26) (l : BitVec 6) (k : BitVec 5) (m : BitVec 12) (d : BitVec 4)
    (v : BitVec 18) : List (String × Instr × InsnWord × Bool) :=
  [("l.cust1", .lCust1 x, 0, true), ("l.cust2", .lCust2 x, 0, true), ("l.cust3", .lCust3 x, 0, true),
    ("l.cust4", .lCust4 x, 0, true), ("l.cust5", .lCust5 rD rA rB l k, 0, true), ("l.cust6", .lCust6 x, 0, true),
    ("l.cust7", .lCust7 x, 0, true), ("l.cust8", .lCust8 x, 0, true),
    ("lf.cust1.d", .lfCust1D rA rB m, c.fcustReserved, hasDouble c),
    ("lf.cust1.s", .lfCust1S rA rB m, c.fcustReserved, hasSingle c),
    ("lv.cust1", .lvCust1 v d, c.vcustReserved, hasVector c), ("lv.cust2", .lvCust2 v d, c.vcustReserved, hasVector c),
    ("lv.cust3", .lvCust3 v d, c.vcustReserved, hasVector c), ("lv.cust4", .lvCust4 v d, c.vcustReserved, hasVector c)]

theorem exec_customInstrs (s : State) (rD rA rB : RegNum) (x : BitVec 26) (l : BitVec 6) (k : BitVec 5) (m : BitVec 12)
    (d : BitVec 4) (v : BitVec 18) :
    ∀ e ∈ customInstrs s.cfg rD rA rB x l k m d v, exec e.2.1 s = unitCustom e.1 e.2.2.1 e.2.2.2 (encode e.2.1) s := by
  simp only [customInstrs, List.forall_mem_cons, List.not_mem_nil, false_implies, implies_true, and_true]
  refine ⟨(unitCustom_unreserved _ _ s).symm, (unitCustom_unreserved _ _ s).symm, (unitCustom_unreserved _ _ s).symm,
    (unitCustom_unreserved _ _ s).symm, (unitCustom_unreserved _ _ s).symm, (unitCustom_unreserved _ _ s).symm,
    (unitCustom_unreserved _ _ s).symm, (unitCustom_unreserved _ _ s).symm, rfl, rfl, rfl, rfl, rfl, rfl⟩

/-- What an instruction that follows `CustomSem` does under each effect of its word (R114, log entry 19). -/
theorem customOp_effects {f : CustomEffect} (he : exec i s = customOp w s) (hf : customEffect s.cfg.customSem w = f) :
    (f = .refuse → exec i s = .refused .customUndefined) ∧ (f = .illegal → RaisesIllegal i s) ∧
    (f = .nop → Completes i s [] fun _ => True) ∧
    (f = .compute → Completes i s [.reg (fieldD w)] fun t =>
      t.uval (fieldD w) =
        (Config.customResult w (BitVec.ofNat 64 (s.uval (fieldA w))) (BitVec.ofNat 64 (s.uval (fieldB w)))).toNat %
          2 ^ s.width) ∧
    (∀ n, f = .function n → exec i s = customAct (Config.customFunction n w s) s) := by
  refine ⟨?_, ?_, ?_, ?_, ?_⟩
  · rintro rfl
    simp only [he, customOp, hf]
  · rintro rfl
    exact raisesIllegal_of_exec (by simp only [he, customOp, hf])
  · rintro rfl
    exact completes_finish (by simp only [he, customOp, hf]) (Frame.refl _ s) rfl rfl trivial
  · rintro rfl
    have hexec : exec i s = regResult s (fieldD w) ((Config.customResult w (BitVec.ofNat 64 (s.uval (fieldA w)))
        (BitVec.ofNat 64 (s.uval (fieldB w)))).setWidth s.width) := by
      simp only [he, customOp, hf, regResult, State.uval, BitVec.ofNat_toNat]
    exact regResult_completes hexec fun t _ ht => ht.trans (BitVec.toNat_setWidth _ _)
  · rintro n rfl
    simp only [he, customOp, hf]

/-! ### What a custom function may ask for -/

/-- Nothing but to advance. -/
theorem customAct_advance (s : State) : ∃ t, customAct (.run [] .advance) s = .next t ∧ Advanced s t ∧ Frame [] s t :=
  ⟨s.advance, rfl, advanced_advance rfl rfl rfl, (Frame.refl _ s).advance⟩

/-- Two registers and F. -/
theorem customAct_regs (s : State) {r q : RegNum} (x y : BitVec 64) (hne : r ≠ q) :
    ∃ t, customAct (.run [.reg r x, .reg q y, .flagF true] .advance) s = .next t ∧ Advanced s t ∧
      Frame [.reg r, .reg q, .sr srF] s t ∧ t.uval r = x.toNat % 2 ^ s.width ∧ t.uval q = y.toNat % 2 ^ s.width ∧
      t.flagF = true := by
  have hrun : customAct (.run [.reg r x, .reg q y, .flagF true] .advance) s =
      finish (((s.setReg r (x.setWidth s.width)).setReg q (y.setWidth s.width)).setF true) := rfl
  have hframe : Frame [.reg r, .reg q, .sr srF] s
      (((s.setReg r (x.setWidth s.width)).setReg q (y.setWidth s.width)).setF true) :=
    (((Frame.refl _ s).setReg r _ (by simp)).setReg q _ (by simp)).setSrBit srF true (by simp)
  have hval : ∀ p, (((s.setReg r (x.setWidth s.width)).setReg q (y.setWidth s.width)).setF true).advance.uval p =
      ((s.setReg r (x.setWidth s.width)).setReg q (y.setWidth s.width)).uval p := State.uval_congr rfl rfl
  refine ⟨_, hrun, advanced_advance rfl rfl rfl, hframe.advance, ?_, ?_, flagF_of_setF rfl⟩
  · rw [hval, State.uval_setReg, if_neg hne, State.uval_setReg_same, BitVec.toNat_setWidth]
  · rw [hval, State.uval_setReg, if_pos rfl, BitVec.toNat_setWidth]
    exact Nat.mod_mod _ _

/-- A store, at the address its checks give. -/
theorem customAct_store {ea x : BitVec 64} {z : Fin 4} {pa : Nat} (hm : Memory.wf s.mem = true)
    (ha : access s .store (2 ^ z.val) (s.trunc ea) = .ok pa) :
    ∃ t, customAct (.run [.store ea z x] .advance) s = .next t ∧ Advanced s t ∧ Frame [.mem, .resv, .stale] s t ∧
      (∀ j < 2 ^ z.val, (readByte t.mem (pa + j)).toNat = x.toNat / 256 ^ (2 ^ z.val - 1 - j) % 256) ∧
      ∀ a, a < pa ∨ pa + 2 ^ z.val ≤ a → readByte t.mem a = readByte s.mem a := by
  have hstore : customAct (.run [.store ea z x] .advance) s = finish (storeDatum s pa (2 ^ z.val) x.toNat) := by
    simp only [customAct, customRun, customWrite, ha, customEnd]
  have hframe := (Frame.refl [.mem, .resv, .stale] s).storeDatum pa (2 ^ z.val) x.toNat (by simp) (by simp) (by simp)
  obtain ⟨hinside, houtside, -⟩ := storeDatum_effect s pa (2 ^ z.val) x.toNat hm
  exact ⟨_, hstore, advanced_advance rfl rfl rfl, hframe.advance, hinside, houtside⟩

/-! ### Words that are no instruction -/

theorem runBytes_of_instr (h : decodeWord w = .instr i) (s : State) : runBytes (bytesOfWord w) s = exec i s := by
  simp only [runBytes, decode_bytesOfWord, h]

theorem runBytes_of_reserved {m : String} (h : decodeWord w = .reserved m) (s : State) :
    runBytes (bytesOfWord w) s = .refused (.reservedBits m) := by
  simp only [runBytes, decode_bytesOfWord, h]

theorem runBytes_of_unassigned (h : decodeWord w = .unassigned) (s : State) :
    runBytes (bytesOfWord w) s = raise s .illegalInstruction := by
  simp only [runBytes, decode_bytesOfWord, h]

theorem decodeWord_reserved {r : OpcodeRow} (hr : r ∈ opcodeTable) (hm : w &&& r.mask = r.pattern)
    (hres : w &&& r.reserved ≠ 0#32) : decodeWord w = .reserved r.mnemonic := by
  simp only [decodeWord, findRow_of_mem hr hm, beq_iff_eq, if_neg hres]

theorem decodeWord_unassigned (h : ∀ r ∈ opcodeTable, w &&& r.mask ≠ r.pattern) : decodeWord w = .unassigned := by
  simp only [decodeWord, findRow_none h]

/-- A word of a row without reserved bits of its own, whose instruction is custom: a bit that the configuration reserves is
refused (log entry 29). -/
theorem runBytes_customReserved {j : Nat} {m : String} {p mask reserved : InsnWord} {b : InsnWord → Instr} {present : Bool}
    (hj : opcodeTable[j]? = some ⟨m, p, mask, 0#32, b⟩)
    (he : ∀ x, exec (b x) s = unitCustom m reserved present (encode (b x)) s) (hm : w &&& mask = p)
    (hw : w &&& reserved ≠ 0#32) : runBytes (bytesOfWord w) s = .refused (.reservedBits m) := by
  have hdecode : decodeWord w = .instr (b w) := decodeWord_of_row hj hm (BitVec.and_zero)
  rw [runBytes_of_instr hdecode, he, encode_of_decodeWord hdecode, unitCustom_reserved hw]

end Sys2Proof.Machine

/-- Settles O49: each instruction asks for its unit before anything else (`AsksFor`). -/
theorem absentUnitIsIllegal : Obligations.AbsentUnitIsIllegal := by
  unfold Obligations.AbsentUnitIsIllegal
  intro s rD rA rB imm l
  have hwide : s.cfg.xlen = .x32 → hasDoubleWord s.cfg = false := fun h => by rw [hasDoubleWord, h]; rfl
  refine ⟨fun h i hi => (mulInstrs_askForUnit s rD rA rB imm i hi).raisesIllegal h,
    fun h i hi => (divInstrs_askForUnit s rD rA rB i hi).raisesIllegal h,
    fun h i hi => (macInstrs_askForUnit s rD rA rB imm i hi).raisesIllegal h,
    fun h i hi => (extInstrs_askForUnit s rD rA i hi).raisesIllegal h, fun h => AsksFor.raisesIllegal ⟨_, rfl⟩ h,
    fun h => ⟨AsksFor.raisesIllegal ⟨_, rfl⟩ h, AsksFor.raisesIllegal ⟨_, rfl⟩ h⟩,
    fun h => ⟨AsksFor.raisesIllegal ⟨_, rfl⟩ h, AsksFor.raisesIllegal ⟨_, rfl⟩ h⟩,
    fun h => ⟨AsksFor.raisesIllegal ⟨_, rfl⟩ h, AsksFor.raisesIllegal ⟨_, rfl⟩ h⟩,
    fun h => ⟨AsksFor.raisesIllegal ⟨_, rfl⟩ (hwide h), AsksFor.raisesIllegal ⟨_, rfl⟩ (hwide h)⟩,
    fun h i hi => (singleInstrs_askForUnit s rD rA rB i hi).raisesIllegal h,
    fun h i hi => (doubleInstrs_askForUnit s rD rA rB i hi).raisesIllegal (unit64_absent h),
    fun h i hi => (vectorInstrs_askForUnit s rD rA rB i hi).raisesIllegal (unit64_absent h)⟩

/-- Settles O48: each custom instruction is `unitCustom` of its word (`exec_customInstrs`), which asks for the reserved bits, the
unit and `CustomSem` in this order. -/
theorem customInstructions : Obligations.CustomInstructions := by
  unfold Obligations.CustomInstructions
  intro s rD rA rB c l k m d v double vector e he w
  have hexec : exec e.2.1 s = unitCustom e.1 e.2.2.1 e.2.2.2 w s := exec_customInstrs s rD rA rB c l k m d v e he
  refine ⟨fun hres => ?_, fun hres hp => ?_, fun hres hp => ?_, rfl, customAct_advance s,
    fun r q x y hne => customAct_regs s x y hne, fun ea x z pa hm ha => customAct_store hm ha, raisedIn_raise s .trap⟩
  · rw [hexec, unitCustom_reserved hres]
  · exact raisesIllegal_of_exec (hexec.trans (unitCustom_absent hres hp _ s))
  · have hop : exec e.2.1 s = customOp w s := hexec.trans (unitCustom_present hres hp _ s)
    refine ⟨fun hnone => (customOp_effects hop (customEffect_none hnone)).1 rfl, fun before r after hsem hbefore hr => ?_⟩
    exact customOp_effects hop (hsem ▸ customEffect_append hbefore hr)

/-- Settles O5: a custom word is the word of its instruction (`encode_of_decodeWord`), which tests the reserved bits; every other
word is refused or raises by what the decoder makes of it. -/
theorem reservedAndUnassignedWords : Obligations.ReservedAndUnassignedWords := by
  unfold Obligations.ReservedAndUnassignedWords
  refine ⟨⟨rfl, rfl⟩, fun s w => ⟨?_, fun r hr hm hres => ?_, fun hnone => ?_⟩⟩
  · simp only [List.forall_mem_cons, List.not_mem_nil, false_implies, implies_true, and_true]
    exact ⟨runBytes_customReserved (j := 100) rfl fun _ => rfl, runBytes_customReserved (j := 101) rfl fun _ => rfl,
      runBytes_customReserved (j := 175) rfl fun _ => rfl, runBytes_customReserved (j := 176) rfl fun _ => rfl,
      runBytes_customReserved (j := 177) rfl fun _ => rfl, runBytes_customReserved (j := 178) rfl fun _ => rfl⟩
  · exact runBytes_of_reserved (decodeWord_reserved hr hm hres) s
  · rw [runBytes_of_unassigned (decodeWord_unassigned hnone)]
    exact raisedIn_raise s .illegalInstruction

end

section
/-! PROOFS. Integer arithmetic, logic, shifts, extensions and bit searches (O16 to O24): the shared ending each instruction has,
with its operands and its result as numbers. -/

open Sys2Proof Sys2Proof.Machine

namespace Sys2Proof.Machine

variable {s : State} {i : Instr} {rD rA rB : RegNum}

/-! ### Endings, with the result as a number -/

/-- An addition of `b`, the signed number `j`, with the carry `c` in: one exact sum (R131). -/
theorem addFlags_outcome {b : BitVec s.width} {c : Bool} {j : Int} {n : Nat}
    (he : exec i s = addArith s rD (addFlags (s.reg rA) b c)) (hb : b.toInt = j) (hc : c.toNat = n) :
    ArithOutcome i s [.reg rD, .sr srCY, .sr srOV]
      [(0, 2 ^ s.width ≤ s.uval rA + wrap s.width j + n), (1, OutOfRange s.width (s.sval rA + j + n))]
      fun t => t.uval rD = (s.uval rA + wrap s.width j + n) % 2 ^ s.width ∧
        (t.flagCY = true ↔ 2 ^ s.width ≤ s.uval rA + wrap s.width j + n) ∧
        (t.flagOV = true ↔ OutOfRange s.width (s.sval rA + j + n)) := by
  subst hb hc
  rw [wrap_toInt]
  exact addArith_outcome he (addFlags_res ..) (addFlags_cy ..) (addFlags_ov ..)

/-- A signed multiplication by `b`, the signed number `j` (R133). -/
theorem mulSigned_outcome {b : BitVec s.width} {j : Int} (hp : s.cfg.hasMul = true)
    (he : exec i s = whenPresent s.cfg.hasMul s (mulArith s rD (mulSigned (s.reg rA) b))) (hb : b.toInt = j) :
    ArithOutcome i s [.reg rD, .sr srOV] [(3, OutOfRange s.width (s.sval rA * j))]
      fun t => t.uval rD = wrap s.width (s.sval rA * j) ∧ (t.flagOV = true ↔ OutOfRange s.width (s.sval rA * j)) := by
  subst hb
  exact mulArith_outcome (he.trans (whenPresent_true hp _)) (mulSigned_res ..) (mulSigned_ov ..)

/-- One register is written, with the number `u`. -/
theorem regResult_writes {v : BitVec s.width} {u : Nat} (he : exec i s = regResult s rD v) (hv : v.toNat = u) :
    Completes i s [.reg rD] fun t => t.uval rD = u :=
  regResult_completes he fun _ _ ht => ht.trans hv

theorem srBit_of_setSrBit {t u : State} {fl : Nat} {b : Bool} (hfl : fl < 32) (h : t.sr = (u.setSrBit fl b).sr) :
    t.srBit fl = b := by
  rw [State.srBit_of_sr h, State.srBit_setSrBit, if_pos ⟨rfl, hfl⟩]

/-- One register and one flag of SR are written (R143, R144). -/
theorem regFlag_completes {v : BitVec s.width} {fl : Nat} {b : Bool} (hfl : fl < 32)
    (he : exec i s = finish ((s.setReg rD v).setSrBit fl b)) :
    Completes i s [.reg rD, .sr fl] fun t => t.uval rD = v.toNat ∧ t.srBit fl = b :=
  completes_finish he (((Frame.refl _ s).setReg rD v (by simp)).setSrBit fl b (by simp)) rfl rfl
    ⟨uval_of_setReg v rfl rfl, srBit_of_setSrBit hfl rfl⟩

/-! ### Division -/

theorem reg_eq_zero_iff (s : State) (r : RegNum) : s.reg r = 0 ↔ s.uval r = 0 := BitVec.toNat_eq.trans (by simp [State.uval])

theorem execLDiv_zero (hp : s.cfg.hasDiv = true) (h0 : s.uval rB = 0) :
    execLDiv rD rA rB s = arithEvent (((s.setReg rD (s.free.setWidth s.width)).setOV true).spend) evDBZE :=
  (whenPresent_true hp _).trans (if_pos ((reg_eq_zero_iff s rB).2 h0))

theorem execLDivu_zero (hp : s.cfg.hasDiv = true) (h0 : s.uval rB = 0) :
    execLDivu rD rA rB s = arithEvent (((s.setReg rD (s.free.setWidth s.width)).setCY true).spend) evDBZE :=
  (whenPresent_true hp _).trans (if_pos ((reg_eq_zero_iff s rB).2 h0))

theorem quotOverflows_iff {n : Nat} (a b : BitVec n) : quotOverflows a b = true ↔ OutOfRange n (a.toInt.tdiv b.toInt) :=
  signedOverflow_iff _ _

theorem execLDiv_overflow (hp : s.cfg.hasDiv = true) (h0 : s.uval rB ≠ 0)
    (ho : OutOfRange s.width ((s.sval rA).tdiv (s.sval rB))) :
    execLDiv rD rA rB s = finish (((s.setReg rD (s.free.setWidth s.width)).setOV false).spend) :=
  (whenPresent_true hp _).trans <| (if_neg (mt (reg_eq_zero_iff s rB).1 h0)).trans <| if_pos ((quotOverflows_iff ..).2 ho)

theorem execLDiv_quotient (hp : s.cfg.hasDiv = true) (h0 : s.uval rB ≠ 0)
    (ho : ¬ OutOfRange s.width ((s.sval rA).tdiv (s.sval rB))) :
    execLDiv rD rA rB s = finish ((s.setReg rD (quotSigned (s.reg rA) (s.reg rB))).setOV false) :=
  (whenPresent_true hp _).trans <| (if_neg (mt (reg_eq_zero_iff s rB).1 h0)).trans <|
    if_neg (mt (quotOverflows_iff ..).1 ho)

theorem execLDivu_quotient (hp : s.cfg.hasDiv = true) (h0 : s.uval rB ≠ 0) :
    execLDivu rD rA rB s = finish ((s.setReg rD (quotUnsigned (s.reg rA) (s.reg rB))).setCY false) :=
  (whenPresent_true hp _).trans (if_neg (mt (reg_eq_zero_iff s rB).1 h0))

theorem quotSigned_toNat {n : Nat} (a b : BitVec n) : (quotSigned a b).toNat = wrap n (a.toInt.tdiv b.toInt) :=
  toNat_ofInt_wrap _ _

/-- The quotient is no larger than the dividend, so it fits. -/
theorem quotUnsigned_toNat {n : Nat} (a b : BitVec n) : (quotUnsigned a b).toNat = a.toNat / b.toNat :=
  (BitVec.toNat_ofNat _ _).trans (Nat.mod_eq_of_lt ((Nat.div_le_self _ _).trans_lt a.isLt))

/-! ### Immediates, shifts and extensions -/

/-- The immediate of `l.movhi` and the sixteen zeros below it fit every register (R153). -/
theorem immZero_shiftLeft_toNat (s : State) (imm : BitVec 16) : (immZero s imm <<< 16).toNat = imm.toNat * 2 ^ 16 := by
  have hfits : imm.toNat * 2 ^ 16 < 2 ^ s.width :=
    calc imm.toNat * 2 ^ 16 < 2 ^ 32 := by have := imm.isLt; omega
      _ ≤ 2 ^ s.width := Nat.pow_le_pow_right two_pos s.width_ge
  rw [BitVec.toNat_shiftLeft, immZero_toNat, Nat.shiftLeft_eq, Nat.mod_eq_of_lt hfits]

theorem shiftLeft_toNat {n : Nat} (v : BitVec n) (k : Nat) : (v <<< k).toNat = v.toNat * 2 ^ k % 2 ^ n := by
  rw [BitVec.toNat_shiftLeft, Nat.shiftLeft_eq]

theorem ushiftRight_toNat {n : Nat} (v : BitVec n) (k : Nat) : (v >>> k).toNat = v.toNat / 2 ^ k := by
  rw [BitVec.toNat_ushiftRight, Nat.shiftRight_eq_div_pow]

theorem signedLow_mod (w k v : Nat) : signedLow w k (v % 2 ^ k) = signedLow w k v := by
  simp only [signedLow, Nat.mod_mod]

/-- An extension with the sign (R145, R147, R149). -/
theorem extend_signed {k : Nat} (hp : s.cfg.hasExt = true) (he : exec i s = extend s rD rA k true) (hk : 0 < k)
    (hkw : k ≤ s.width) : Completes i s [.reg rD] fun t => t.uval rD = signedLow s.width k (s.uval rA) :=
  regResult_writes (he.trans (whenPresent_true hp _)) <|
    (signExtend_toNat _ hk hkw).trans <| by rw [BitVec.toNat_setWidth]; exact signedLow_mod ..

/-- An extension with zeros (R146, R148, R150). -/
theorem extend_zero {k : Nat} (hp : s.cfg.hasExt = true) (he : exec i s = extend s rD rA k false) (hkw : k ≤ s.width) :
    Completes i s [.reg rD] fun t => t.uval rD = s.uval rA % 2 ^ k :=
  regResult_writes (he.trans (whenPresent_true hp _)) (BitVec.toNat_setWidth_of_le hkw |>.trans (BitVec.toNat_setWidth ..))

/-! ### Bit searches -/

/-- A position among `w` bits, counted from one, fits `w` bits. -/
theorem toNat_ofNat_position {w k : Nat} (h : k < w) : (BitVec.ofNat w (k + 1)).toNat = k + 1 :=
  (BitVec.toNat_ofNat _ _).trans (Nat.mod_eq_of_lt (Nat.lt_of_le_of_lt h Nat.lt_two_pow_self))

/-- A one of a register is at a position below its width. -/
theorem testBit_uval_lt {k : Nat} (h : (s.uval rA).testBit k = true) : k < s.width := by
  by_contra hk
  have hzero : (s.uval rA).testBit k = false :=
    Nat.testBit_lt_two_pow ((s.uval_lt rA).trans_le (Nat.pow_le_pow_right two_pos (not_lt.1 hk)))
  exact Bool.false_ne_true (hzero.symm.trans h)

/-- A search that answers 0 for no one, and otherwise the position, from one, of the one that `found` describes. -/
theorem search_completes {search : BitVec s.width → Nat} {found : Nat → Prop}
    (he : exec i s = regResult s rD (BitVec.ofNat s.width (search (s.reg rA)))) (hzero : search 0#s.width = 0)
    (hfound : ∀ k, (s.uval rA).testBit k = true → found k → search (s.reg rA) = k + 1) :
    Completes i s [.reg rD] fun t =>
      (s.uval rA = 0 → t.uval rD = 0) ∧ ∀ k, (s.uval rA).testBit k = true → found k → t.uval rD = k + 1 := by
  refine regResult_completes he fun t _ ht => ⟨fun h0 => ?_, fun k hk hf => ?_⟩
  · have hreg : s.reg rA = 0#s.width := (reg_eq_zero_iff s rA).2 h0
    rw [ht, hreg, hzero, BitVec.toNat_ofNat, Nat.zero_mod]
  · rw [ht, hfound k hk hf, toNat_ofNat_position (testBit_uval_lt hk)]

end Sys2Proof.Machine

/-- Settles O16: each is an addition of its second operand and its carry in (`addFlags_outcome`). -/
theorem additionResult : Obligations.AdditionResult := by
  unfold Obligations.AdditionResult
  intro s rD rA rB imm
  simp only [List.forall_mem_cons, List.not_mem_nil, false_implies, implies_true, and_true]
  exact ⟨addFlags_outcome rfl rfl rfl, addFlags_outcome rfl rfl rfl, addFlags_outcome rfl (immSigned_toInt s imm) rfl,
    addFlags_outcome rfl (immSigned_toInt s imm) rfl⟩

/-- Settles O17: the ending of an addition, with the flags of a subtraction. -/
theorem subtractionResult : Obligations.SubtractionResult := by
  unfold Obligations.SubtractionResult
  exact fun s rD rA rB => addArith_outcome rfl (subFlags_res ..) (subFlags_cy ..) (subFlags_ov ..)

/-- Settles O18: the signed forms by `mulSigned_outcome`, `l.mulu` by its own ending. -/
theorem multiplicationResult : Obligations.MultiplicationResult := by
  unfold Obligations.MultiplicationResult
  intro s rD rA rB imm hp
  simp only [List.forall_mem_cons, List.not_mem_nil, false_implies, implies_true, and_true]
  exact ⟨⟨mulSigned_outcome hp rfl rfl, mulSigned_outcome hp rfl (immSigned_toInt s imm)⟩,
    mulu_outcome (whenPresent_true hp _) (mulUnsigned_res ..) (mulUnsigned_cy ..)⟩

/-- Settles O19: the three branches of the two divisions whose divisor is not zero. -/
theorem divisionResult : Obligations.DivisionResult := by
  unfold Obligations.DivisionResult
  intro s rD rA rB hp h0
  refine ⟨fun hfits => ?_, fun hover => ?_, ?_⟩
  · have hquot := regFlag_completes (i := .lDiv rD rA rB) (by decide) (execLDiv_quotient hp h0 hfits)
    rwa [quotSigned_toNat] at hquot
  · have hframe : Frame [.reg rD, .sr srOV, .draws] s (((s.setReg rD (s.free.setWidth s.width)).setOV false).spend) :=
      (((Frame.refl _ s).setReg rD _ (by simp)).setSrBit srOV false (by simp)).spend (by simp)
    exact completes_finish (execLDiv_overflow hp h0 hover) hframe rfl rfl (srBit_of_setSrBit (by decide) rfl)
  · have hquot := regFlag_completes (i := .lDivu rD rA rB) (by decide) (execLDivu_quotient hp h0)
    rwa [quotUnsigned_toNat] at hquot

/-- Settles O20: both are the one ending of a division by zero, each with its flag. -/
theorem divisionByZero : Obligations.DivisionByZero := by
  unfold Obligations.DivisionByZero
  exact fun s rD rA rB hp h0 =>
    ⟨divZero_outcome (.inr rfl) (execLDiv_zero hp h0), divZero_outcome (.inl rfl) (execLDivu_zero hp h0)⟩

/-- Settles O21: each writes one register; what is left is the number of the value written. -/
theorem logicAndMoveResult : Obligations.LogicAndMoveResult := by
  unfold Obligations.LogicAndMoveResult
  intro s rD rA rB imm
  simp only [List.forall_mem_cons, List.not_mem_nil, false_implies, implies_true, and_true]
  have hzero := immZero_toNat s imm
  refine ⟨⟨regResult_writes rfl (BitVec.toNat_and ..), regResult_writes rfl ((BitVec.toNat_and ..).trans (by rw [hzero]; rfl)),
    regResult_writes rfl (BitVec.toNat_or ..), regResult_writes rfl ((BitVec.toNat_or ..).trans (by rw [hzero]; rfl)),
    regResult_writes rfl (BitVec.toNat_xor ..),
    regResult_writes rfl ((BitVec.toNat_xor ..).trans (by rw [immSigned_toNat]; rfl)),
    regResult_writes rfl (immZero_shiftLeft_toNat s imm)⟩, fun hp => ?_⟩
  refine regResult_completes (whenPresent_true hp _) fun t _ ht => ⟨fun hF => ?_, fun hF => ?_⟩
  · rw [ht, if_pos hF]; rfl
  · rw [ht, if_neg (Bool.eq_false_iff.1 hF)]; rfl

/-- Settles O22: the amount of either form is `n % XLEN`; each shift of a register is the arithmetic on its number. -/
theorem shiftRotateResult : Obligations.ShiftRotateResult := by
  unfold Obligations.ShiftRotateResult
  intro s rD rA rB l
  simp only [List.forall_mem_cons, List.not_mem_nil, false_implies, implies_true, and_true, ← shiftAmountReg_eq,
    ← shiftAmountImm_eq]
  have hreg : shiftAmountReg s rB < s.width := shiftAmountReg_eq s rB ▸ Nat.mod_lt _ s.width_pos
  have himm : shiftAmountImm s l < s.width := shiftAmountImm_eq s l ▸ Nat.mod_lt _ s.width_pos
  exact ⟨⟨regResult_writes rfl (shiftLeft_toNat ..), regResult_writes rfl (shiftLeft_toNat ..)⟩,
    ⟨regResult_writes rfl (ushiftRight_toNat ..), regResult_writes rfl (ushiftRight_toNat ..)⟩,
    ⟨regResult_writes rfl (sshiftRight_toNat ..), regResult_writes rfl (sshiftRight_toNat ..)⟩,
    fun hp => ⟨regResult_writes (whenPresent_true hp _) (rotateRight_toNat _ _ hreg),
      regResult_writes (whenPresent_true hp _) (rotateRight_toNat _ _ himm)⟩⟩

/-- Settles O23: each is `extend`, of at most 32 bits, which every register has. -/
theorem extensionResult : Obligations.ExtensionResult := by
  unfold Obligations.ExtensionResult
  intro s rD rA hp
  simp only [List.forall_mem_cons, List.not_mem_nil, false_implies, implies_true, and_true]
  have hw : 32 ≤ s.width := s.width_ge
  exact ⟨extend_signed hp rfl (by omega) (by omega), extend_zero hp rfl (by omega), extend_signed hp rfl (by omega) (by omega),
    extend_zero hp rfl (by omega), extend_signed hp rfl (by omega) hw, extend_zero hp rfl hw⟩

/-- Settles O24: both are searches (`search_completes`), whose answers are those of `findFirst` and `findLast`. -/
theorem findOneResult : Obligations.FindOneResult := by
  unfold Obligations.FindOneResult
  exact fun s rD rA rB hp => ⟨search_completes (whenPresent_true hp _) (findFirst_zero _) (findFirst_eq _),
    search_completes (whenPresent_true hp _) (findLast_zero _) (findLast_eq _)⟩

end

section
/-! PROOFS. The compares (O25), branches and jumps with what the spec refuses of them (O26 to O28), and the instructions that
follow `USER_SPR_POLICY` in user mode (O47). -/

open Sys2Proof Sys2Proof.Machine

namespace Sys2Proof.Machine

variable {s : State} {i : Instr} {rA : RegNum}

/-! ### Compares -/

/-- A compare for equality of patterns is one of their signed numbers (R180, R181). -/
theorem setFlag_beq_completes {b : BitVec s.width} (he : exec i s = setFlag s (s.reg rA == b)) :
    Completes i s [.sr srF] fun t => t.flagF = true ↔ s.sval rA = b.toInt :=
  setFlag_completes he (beq_iff_eq.trans BitVec.toInt_inj.symm)

/-- A compare for inequality of patterns is one of their signed numbers (R198, R199). -/
theorem setFlag_bne_completes {b : BitVec s.width} (he : exec i s = setFlag s (s.reg rA != b)) :
    Completes i s [.sr srF] fun t => t.flagF = true ↔ s.sval rA ≠ b.toInt :=
  setFlag_completes he (bne_iff_ne.trans BitVec.toInt_inj.not.symm)

/-- A compare that decides an order of numbers (R182 to R197). -/
theorem setFlag_decide_completes {p : Prop} {inst : Decidable p} (he : exec i s = setFlag s (@decide p inst)) :
    Completes i s [.sr srF] fun t => t.flagF = true ↔ p :=
  setFlag_completes he decide_eq_true_iff

/-! ### Branches and jumps -/

/-- A conditional branch whose condition does not hold only advances (R201 to R203). -/
theorem branchIf_notTaken {taken : Bool} {n : BitVec 26} (he : exec i s = branchIf s taken n) (hd : s.ds = none)
    (ht : taken = false) : Completes i s [] fun _ => True :=
  completes_nothing <| by rw [he, branchIf, outsideSlot_none hd, ht]; rfl

theorem lJalr_linkReg (s : State) : exec (.lJalr linkReg) s = .refused .jalrLinkRegister := by
  simp only [exec, execLJalr, if_true]

theorem lSys_inSlot (hd : s.ds ≠ none) (k : BitVec 16) : exec (.lSys k) s = .refused .sysInDelaySlot :=
  if_pos (Option.isSome_iff_ne_none.2 hd)

theorem lTrap_inSlot (hd : s.ds ≠ none) (k : BitVec 16) : exec (.lTrap k) s = .refused .sysInDelaySlot :=
  if_pos (Option.isSome_iff_ne_none.2 hd)

/-! ### Privileged instructions in user mode -/

theorem privileged_illegal (hs : s.supervisor = false) (hp : s.cfg.userSprPolicy = .illegal) (a k : Outcome) :
    privileged s a k = raise s .illegalInstruction := by
  simp [privileged, hs, hp]

theorem privileged_refuse (hs : s.supervisor = false) (hp : s.cfg.userSprPolicy = .refuse) (a k : Outcome) :
    privileged s a k = .refused .userSprAccess := by
  simp [privileged, hs, hp]

theorem privileged_ignore (hs : s.supervisor = false) (hp : s.cfg.userSprPolicy = .ignore) (a k : Outcome) :
    privileged s a k = a := by
  simp [privileged, hs, hp]

/-- The three instructions ask for the privilege before anything else (R280, R282, R285). -/
theorem exec_privileged (s : State) (rD rA rB : RegNum) (k : BitVec 16) :
    ∀ i ∈ ([.lMfspr rD rA k, .lMtspr rA rB k, .lRfe] : List Instr), ∃ a o, exec i s = privileged s a o := by
  simp only [List.forall_mem_cons, List.not_mem_nil, false_implies, implies_true, and_true]
  exact ⟨⟨_, _, rfl⟩, ⟨_, _, rfl⟩, ⟨_, _, rfl⟩⟩

/-- The end of `l.mfspr` under `ignore`: the register reads zero (R288). -/
theorem regResultSpr_zero_completes {rD : RegNum} (he : exec i s = regResultSpr s rD 0#32) :
    Completes i s [.reg rD] fun t => t.uval rD = 0 := by
  refine completes_finish he ((Frame.refl _ s).setReg rD _ (by simp)) rfl rfl ?_
  rw [State.uval_congr (State.advance_cfg _) (State.advance_regs _), State.uval_setReg, if_pos rfl]
  exact Nat.zero_mod _

end Sys2Proof.Machine

/-- Settles O25: each decides its relation on the two operands; an immediate is the number it extends to. -/
theorem compareSetsFlag : Obligations.CompareSetsFlag := by
  unfold Obligations.CompareSetsFlag
  intro s rA rB imm
  rw [← immSigned_toNat, ← immSigned_toInt s]
  simp only [List.forall_mem_cons, List.not_mem_nil, false_implies, implies_true, and_true]
  exact ⟨⟨setFlag_beq_completes rfl, setFlag_bne_completes rfl, setFlag_decide_completes rfl, setFlag_decide_completes rfl,
      setFlag_decide_completes rfl, setFlag_decide_completes rfl⟩,
    ⟨setFlag_decide_completes rfl, setFlag_decide_completes rfl, setFlag_decide_completes rfl, setFlag_decide_completes rfl⟩,
    ⟨setFlag_beq_completes rfl, setFlag_bne_completes rfl, setFlag_decide_completes rfl, setFlag_decide_completes rfl,
      setFlag_decide_completes rfl, setFlag_decide_completes rfl⟩,
    ⟨setFlag_decide_completes rfl, setFlag_decide_completes rfl, setFlag_decide_completes rfl, setFlag_decide_completes rfl⟩⟩

/-- Settles O26: the conditional branches by `jumps_branchIf` and `branchIf_notTaken`; `l.j` is always taken. -/
theorem branchTaken : Obligations.BranchTaken := by
  unfold Obligations.BranchTaken
  intro s n hd
  simp only [List.forall_mem_cons, List.not_mem_nil, false_implies, implies_true, and_true]
  exact ⟨⟨jumps_branchIf rfl hd, branchIf_notTaken rfl hd⟩, ⟨jumps_branchIf rfl hd, branchIf_notTaken rfl hd⟩,
    fun _ => jumps_lJ hd n, nofun⟩

/-- Settles O27: a register jump, and the two jumps that link (`jumps_jumpAndLink`). -/
theorem linkAndRegisterJumps : Obligations.LinkAndRegisterJumps := by
  unfold Obligations.LinkAndRegisterJumps
  exact fun s n rB hd => ⟨jumps_lJr hd rB, jumps_jumpAndLink rfl hd (branchTarget_toNat s n), jumps_lJalr hd⟩

/-- Settles O28: every jump and branch, and `l.rfe` once it has its privilege, is refused by `outsideSlot`. -/
theorem refusedJumps : Obligations.RefusedJumps := by
  unfold Obligations.RefusedJumps
  refine fun s n rB k => ⟨lJalr_linkReg s, fun hd => ⟨?_, fun hr => ?_, fun hs => ?_, lSys_inSlot hd k, lTrap_inSlot hd k⟩⟩
  · simp only [List.forall_mem_cons, List.not_mem_nil, false_implies, implies_true, and_true]
    exact ⟨outsideSlot_some hd _, outsideSlot_some hd _, outsideSlot_some hd _, outsideSlot_some hd _, outsideSlot_some hd _⟩
  · exact (if_neg hr).trans (outsideSlot_some hd _)
  · exact (privileged_supervisor hs _ _).trans (outsideSlot_some hd _)

/-- Settles O47: the three instructions are `privileged`, which in user mode is what the policy says. -/
theorem userModeSprAccess : Obligations.UserModeSprAccess := by
  unfold Obligations.UserModeSprAccess
  refine fun s rD rA rB k hs => ⟨fun hp i hi => ?_, fun hp i hi => ?_, fun hp => ?_⟩
  · obtain ⟨a, o, he⟩ := exec_privileged s rD rA rB k i hi
    exact raisesIllegal_of_exec (he.trans (privileged_illegal hs hp a o))
  · obtain ⟨a, o, he⟩ := exec_privileged s rD rA rB k i hi
    exact he.trans (privileged_refuse hs hp a o)
  · exact ⟨regResultSpr_zero_completes (privileged_ignore hs hp _ _), completes_nothing (privileged_ignore hs hp _ _),
      completes_nothing (privileged_ignore hs hp _ _)⟩

end

section
/-! PROOFS. Loads and stores whose checks fail (O36): every one of them asks for its unit, then makes the checks of `access`,
and raises what they name before it writes anything. -/

open Sys2Proof Sys2Proof.Machine

namespace Sys2Proof.Machine

variable {s : State} {e : Exc} {rD rA rB : RegNum} {imm : BitVec 16}

theorem exec_lLd_error (hx : (s.cfg.xlen == .x64) = true) (h : access s .load 8 (effectiveAddr s rA imm) = .error e) :
    exec (.lLd rD rA imm) s = raise s e :=
  (exec_lLd (beq_iff_eq.1 hx)).trans (loadOp_error h)

theorem exec_lSd_error (hx : (s.cfg.xlen == .x64) = true) (h : access s .store 8 (effectiveAddr s rA imm) = .error e) :
    exec (.lSd rA rB imm) s = raise s e :=
  (exec_lSd (beq_iff_eq.1 hx)).trans (storeOp_error h)

/-- `l.lwa` makes its checks before it loads or reserves (R226). -/
theorem exec_lLwa_error (hl : s.cfg.hasLwa = true) (h : access s .load 4 (effectiveAddr s rA imm) = .error e) :
    exec (.lLwa rD rA imm) s = raise s e :=
  (whenPresent_true hl _).trans (by simp only [h])

/-- `l.swa` makes its checks before it asks for the reservation (R87, R233). -/
theorem exec_lSwa_error (hl : s.cfg.hasLwa = true) (h : access s .store 4 (effectiveAddr s rA imm) = .error e) :
    exec (.lSwa rA rB imm) s = raise s e :=
  (whenPresent_true hl _).trans (by simp only [h])

/-- The instructions that access data, each with the kind and the bytes of its access and whether the configuration has it
(R221 to R233). -/
def dataAccesses (c : Config) (r rA rB : RegNum) (imm : BitVec 16) : List (Instr × AccessKind × Nat × Bool) :=
  [(.lLbz r rA imm, .load, 1, true), (.lLbs r rA imm, .load, 1, true), (.lLhz r rA imm, .load, 2, true),
    (.lLhs r rA imm, .load, 2, true), (.lLwz r rA imm, .load, 4, true), (.lLws r rA imm, .load, 4, true),
    (.lLd r rA imm, .load, 8, c.xlen == .x64), (.lLwa r rA imm, .load, 4, c.hasLwa), (.lSb rA rB imm, .store, 1, true),
    (.lSh rA rB imm, .store, 2, true), (.lSw rA rB imm, .store, 4, true), (.lSd rA rB imm, .store, 8, c.xlen == .x64),
    (.lSwa rA rB imm, .store, 4, c.hasLwa)]

/-- Where its checks fail, an instruction that the configuration has only raises what they name (R220, R226, R233). -/
theorem exec_dataAccesses_error (s : State) (r rA rB : RegNum) (imm : BitVec 16) (e : Exc) :
    ∀ a ∈ dataAccesses s.cfg r rA rB imm, a.2.2.2 = true → access s a.2.1 a.2.2.1 (effectiveAddr s rA imm) = .error e →
      exec a.1 s = raise s e := by
  simp only [dataAccesses, List.forall_mem_cons, List.not_mem_nil, false_implies, true_implies, implies_true, and_true]
  exact ⟨loadOp_error, loadOp_error, loadOp_error, loadOp_error, loadOp_error, loadOp_error, exec_lLd_error,
    exec_lLwa_error, storeOp_error, storeOp_error, storeOp_error, exec_lSd_error, exec_lSwa_error⟩

end Sys2Proof.Machine

/-- Settles O36: the instruction only raises the exception (`exec_dataAccesses_error`), which is one that carries the address. -/
theorem loadStoreTraps : Obligations.LoadStoreTraps := by
  unfold Obligations.LoadStoreTraps
  intro s r rA rB imm ex row e he hpresent haccess hrow
  rw [exec_dataAccesses_error s r rA rB imm ex e he hpresent haccess]
  exact raisedIn_of_access hrow

end

section
/-! PROOFS. Multiply-accumulate (O38, O39) and the double-width multiplications with `l.macrc` (O40): what each accumulate
computes, as a number and a flag, then the ending of each instruction. -/

open Sys2Proof Sys2Proof.Machine

namespace Sys2Proof.Machine

variable {s : State} {i : Instr} {rD rA rB : RegNum}

/-! ### The accumulate stage (R251) -/

/-- The product enters as its low 64 bits, read as a signed number (D38): the one number in range that is congruent to it. -/
theorem toInt_ofInt_of_congr {q p : Int} (hlo : -(2 ^ 63) ≤ p) (hhi : p < 2 ^ 63) (h : (q - p) % 2 ^ 64 = 0) :
    (BitVec.ofInt 64 q).toInt = p := by
  have hmod : q % 2 ^ 64 = p % 2 ^ 64 := Int.emod_eq_emod_iff_emod_sub_eq_zero.2 h
  rw [BitVec.toInt_ofInt, Int.bmod_def]
  omega

theorem accAddSigned_res (acc : BitVec 64) (q : Int) :
    (accAddSigned acc q).1.toNat = wrap 64 (acc.toInt + (BitVec.ofInt 64 q).toInt) := toNat_ofInt_wrap _ _

theorem accAddSigned_ov (acc : BitVec 64) (q : Int) :
    (accAddSigned acc q).2 = true ↔ OutOfRange 64 (acc.toInt + (BitVec.ofInt 64 q).toInt) := signedOverflow_iff _ _

theorem accSubSigned_res (acc : BitVec 64) (q : Int) :
    (accSubSigned acc q).1.toNat = wrap 64 (acc.toInt - (BitVec.ofInt 64 q).toInt) := toNat_ofInt_wrap _ _

theorem accSubSigned_ov (acc : BitVec 64) (q : Int) :
    (accSubSigned acc q).2 = true ↔ OutOfRange 64 (acc.toInt - (BitVec.ofInt 64 q).toInt) := signedOverflow_iff _ _

theorem accAddUnsigned_res (acc : BitVec 64) (q : Nat) :
    (accAddUnsigned acc q).1.toNat = (acc.toNat + q % 2 ^ 64) % 2 ^ 64 := BitVec.toNat_ofNat _ _

theorem accAddUnsigned_cy (acc : BitVec 64) (q : Nat) :
    (accAddUnsigned acc q).2 = true ↔ 2 ^ 64 ≤ acc.toNat + q % 2 ^ 64 := decide_eq_true_iff

/-- Modulo `2 ^ 64` it makes no difference that the product is reduced first. -/
theorem accSubUnsigned_res (acc : BitVec 64) (q : Nat) :
    (accSubUnsigned acc q).1.toNat = wrap 64 ((acc.toNat : Int) - q) :=
  (toNat_ofInt_wrap _ _).trans (wrap_congr (by omega))

/-- The difference is negative exactly where the reduced product exceeds the accumulator. -/
theorem accSubUnsigned_cy (acc : BitVec 64) (q : Nat) : (accSubUnsigned acc q).2 = true ↔ acc.toNat < q % 2 ^ 64 :=
  decide_eq_true_iff.trans (by omega)

/-! ### The events of the multiplications (R45) -/

theorem evCYMULE_bit (k : Nat) : evCYMULE.getLsbD k = true ↔ k = 2 := by
  obtain ⟨-, -, h, -⟩ := event_bits k; exact h

theorem evOVMULE_bit (k : Nat) : evOVMULE.getLsbD k = true ↔ k = 3 := by
  obtain ⟨-, -, -, h, -⟩ := event_bits k; exact h

theorem evCYMACADDE_bit (k : Nat) : evCYMACADDE.getLsbD k = true ↔ k = 5 := by
  obtain ⟨-, -, -, -, -, h, -⟩ := event_bits k; exact h

theorem evOVMACADDE_bit (k : Nat) : evOVMACADDE.getLsbD k = true ↔ k = 6 := by
  obtain ⟨-, -, -, -, -, -, h⟩ := event_bits k; exact h

/-! ### The ending of an accumulate -/

/-- A signed accumulate whose exact result is `j` (R251). -/
theorem macSigned_outcome {r : BitVec 64 × Bool} {j : Int} (hp : s.cfg.hasMac = true) (he : exec i s = macSigned s r)
    (hj : r.1.toNat = wrap 64 j) (ho : r.2 = true ↔ OutOfRange 64 j) :
    ArithOutcome i s [.machi, .maclo, .sr srOV] [(6, OutOfRange 64 j)]
      fun t => t.accU = wrap 64 j ∧ (t.flagOV = true ↔ OutOfRange 64 j) :=
  macFlag_outcome (.inr rfl) evOVMACADDE_bit (he.trans (whenPresent_true hp _)) hj ho

/-- The product `q` is added, as the signed number `p` (R252, R253). -/
theorem macAdd_outcome {q p : Int} (hp : s.cfg.hasMac = true) (he : exec i s = macSigned s (accAddSigned s.acc q))
    (hq : (BitVec.ofInt 64 q).toInt = p) :
    ArithOutcome i s [.machi, .maclo, .sr srOV] [(6, OutOfRange 64 (s.accS + p))]
      fun t => t.accU = wrap 64 (s.accS + p) ∧ (t.flagOV = true ↔ OutOfRange 64 (s.accS + p)) := by
  rw [← hq, ← State.acc_toInt]
  exact macSigned_outcome hp he (accAddSigned_res ..) (accAddSigned_ov ..)

/-- The product `q` is subtracted, as the signed number `p` (R256). -/
theorem macSub_outcome {q p : Int} (hp : s.cfg.hasMac = true) (he : exec i s = macSigned s (accSubSigned s.acc q))
    (hq : (BitVec.ofInt 64 q).toInt = p) :
    ArithOutcome i s [.machi, .maclo, .sr srOV] [(6, OutOfRange 64 (s.accS - p))]
      fun t => t.accU = wrap 64 (s.accS - p) ∧ (t.flagOV = true ↔ OutOfRange 64 (s.accS - p)) := by
  rw [← hq, ← State.acc_toInt]
  exact macSigned_outcome hp he (accSubSigned_res ..) (accSubSigned_ov ..)

/-- An unsigned accumulate that leaves `n`, with a carry or a borrow where `c` holds (R251). -/
theorem macUnsigned_outcome {r : BitVec 64 × Bool} {n : Nat} {c : Prop} (hp : s.cfg.hasMac = true)
    (he : exec i s = macUnsigned s r) (hn : r.1.toNat = n) (hc : r.2 = true ↔ c) :
    ArithOutcome i s [.machi, .maclo, .sr srCY] [(5, c)] fun t => t.accU = n ∧ (t.flagCY = true ↔ c) :=
  macFlag_outcome (.inl rfl) evCYMACADDE_bit (he.trans (whenPresent_true hp _)) hn hc

/-! ### Double-width multiplications and `l.macrc` -/

/-- `l.muld` at `XLEN = 32` writes no flag (R258). -/
theorem exec_lMuld_x32 (hp : s.cfg.hasMac = true) (hx : s.cfg.xlen = .x32) :
    exec (.lMuld rA rB) s = finish (s.setAcc (BitVec.ofInt 64 (s.sval rA * s.sval rB))) :=
  (whenPresent_true hp _).trans (by simp only [hx]; rfl)

theorem exec_lMuld_x64 (hp : s.cfg.hasMac = true) (hx : s.cfg.xlen = .x64) :
    exec (.lMuld rA rB) s =
      arithEvent ((s.setAcc (BitVec.ofInt 64 (s.sval rA * s.sval rB))).setOV (signedOverflow 64 (s.sval rA * s.sval rB)))
        (eventIf (signedOverflow 64 (s.sval rA * s.sval rB)) evOVMULE) :=
  (whenPresent_true hp _).trans (by simp only [hx]; rfl)

/-- `l.muldu` at `XLEN = 32` writes no flag (R259). -/
theorem exec_lMuldu_x32 (hp : s.cfg.hasMac = true) (hx : s.cfg.xlen = .x32) :
    exec (.lMuldu rA rB) s = finish (s.setAcc (BitVec.ofNat 64 (s.uval rA * s.uval rB))) :=
  (whenPresent_true hp _).trans (by simp only [hx]; rfl)

theorem exec_lMuldu_x64 (hp : s.cfg.hasMac = true) (hx : s.cfg.xlen = .x64) :
    exec (.lMuldu rA rB) s =
      arithEvent ((s.setAcc (BitVec.ofNat 64 (s.uval rA * s.uval rB))).setCY (2 ^ 64 ≤ s.uval rA * s.uval rB))
        (eventIf (2 ^ 64 ≤ s.uval rA * s.uval rB) evCYMULE) :=
  (whenPresent_true hp _).trans (by simp only [hx]; rfl)

/-- The accumulator alone is written. -/
theorem setAcc_completes {v : BitVec 64} {n : Nat} (he : exec i s = finish (s.setAcc v)) (hn : v.toNat = n) :
    Completes i s [.machi, .maclo] fun t => t.accU = n :=
  completes_finish he ((Frame.refl _ s).setAcc v (by simp) (by simp)) rfl rfl ((State.setAcc_accU s v).trans hn)

/-- Two words of 32 bits have a product of at most 64. -/
theorem uval_mul_lt_of_x32 (hx : s.cfg.xlen = .x32) (rA rB : RegNum) : s.uval rA * s.uval rB < 2 ^ 64 := by
  have hw : s.width = 32 := by rw [State.width_eq, hx]; rfl
  have hA := s.uval_lt rA
  have hB := s.uval_lt rB
  rw [hw] at hA hB
  calc s.uval rA * s.uval rB < 2 ^ 32 * 2 ^ 32 := Nat.mul_lt_mul'' hA hB
    _ = 2 ^ 64 := by norm_num

theorem lMuld_outcome_x64 (hp : s.cfg.hasMac = true) (hx : s.cfg.xlen = .x64) :
    ArithOutcome (.lMuld rA rB) s [.machi, .maclo, .sr srOV] [(3, OutOfRange 64 (s.sval rA * s.sval rB))]
      fun t => t.accU = wrap 64 (s.sval rA * s.sval rB) ∧ (t.flagOV = true ↔ OutOfRange 64 (s.sval rA * s.sval rB)) :=
  macFlag_outcome (.inr rfl) evOVMULE_bit (exec_lMuld_x64 hp hx) (toNat_ofInt_wrap _ _) (signedOverflow_iff _ _)

theorem lMuldu_outcome_x64 (hp : s.cfg.hasMac = true) (hx : s.cfg.xlen = .x64) :
    ArithOutcome (.lMuldu rA rB) s [.machi, .maclo, .sr srCY] [(2, 2 ^ 64 ≤ s.uval rA * s.uval rB)]
      fun t => t.accU = s.uval rA * s.uval rB % 2 ^ 64 ∧ (t.flagCY = true ↔ 2 ^ 64 ≤ s.uval rA * s.uval rB) :=
  macFlag_outcome (.inl rfl) evCYMULE_bit (exec_lMuldu_x64 hp hx) (BitVec.toNat_ofNat _ _) decide_eq_true_iff

/-- The register takes the low bits of the accumulator as it was before it is cleared (R254). -/
theorem lMacrc_completes (hp : s.cfg.hasMac = true) :
    Completes (.lMacrc rD) s [.reg rD, .machi, .maclo] fun t => t.uval rD = s.accU % 2 ^ s.width ∧ t.accU = 0 := by
  refine completes_finish (whenPresent_true hp _) (((Frame.refl _ s).setReg rD _ (by simp)).setAcc _ (by simp) (by simp))
    rfl rfl ⟨?_, State.setAcc_accU (s.setReg rD (s.acc.setWidth s.width)) 0#64⟩
  rw [← State.acc_toNat, ← BitVec.toNat_setWidth]
  exact uval_of_setReg (s.acc.setWidth s.width) rfl rfl

end Sys2Proof.Machine

/-- Settles O38: each adds or subtracts its product, read as the signed number `p` (`toInt_ofInt_of_congr`). -/
theorem signedAccumulateResult : Obligations.SignedAccumulateResult := by
  unfold Obligations.SignedAccumulateResult
  intro s rA rB imm p hp hlo hhi
  simp only [List.forall_mem_cons, List.not_mem_nil, false_implies, implies_true, and_true]
  refine ⟨fun h => macAdd_outcome hp rfl (toInt_ofInt_of_congr hlo hhi h), fun h => macAdd_outcome hp rfl ?_,
    fun h => macSub_outcome hp rfl (toInt_ofInt_of_congr hlo hhi h)⟩
  rw [immSigned_toInt]
  exact toInt_ofInt_of_congr hlo hhi h

/-- Settles O39: one unsigned accumulate each, the accumulator read as the number `accU`. -/
theorem unsignedAccumulateResult : Obligations.UnsignedAccumulateResult := by
  unfold Obligations.UnsignedAccumulateResult
  intro s rA rB hp
  rw [← State.acc_toNat, ← Nat.cast_mul]
  exact ⟨macUnsigned_outcome hp rfl (accAddUnsigned_res ..) (accAddUnsigned_cy ..),
    macUnsigned_outcome hp rfl (accSubUnsigned_res ..) (accSubUnsigned_cy ..)⟩

/-- Settles O40: at `XLEN = 32` a product fits the accumulator and only that is written; at 64 a flag and an event tell whether
it fits. -/
theorem doubleMultiplyResult : Obligations.DoubleMultiplyResult := by
  unfold Obligations.DoubleMultiplyResult
  intro s rD rA rB hp
  refine ⟨fun hx => ⟨?_, ?_⟩, fun hx => ⟨lMuld_outcome_x64 hp hx, lMuldu_outcome_x64 hp hx⟩, lMacrc_completes hp⟩
  · exact setAcc_completes (exec_lMuld_x32 hp hx) (toNat_ofInt_wrap _ _)
  · exact setAcc_completes (exec_lMuldu_x32 hp hx) (Nat.mod_eq_of_lt (uval_mul_lt_of_x32 hx rA rB))

end

section
/-! PROOFS. `l.sys` and `l.trap` outside a delay slot (O46): each is the raise of its own exception, with nothing before it. -/

open Sys2Proof Sys2Proof.Machine

namespace Sys2Proof.Machine

variable {s : State}

theorem exec_lSys (hd : s.ds = none) (k : BitVec 16) : exec (.lSys k) s = raise s .systemCall :=
  if_neg (Option.not_isSome_iff_eq_none.2 hd)

theorem exec_lTrap (hd : s.ds = none) (k : BitVec 16) : exec (.lTrap k) s = raise s .trap :=
  if_neg (Option.not_isSome_iff_eq_none.2 hd)

end Sys2Proof.Machine

/-- Settles O46: each only raises its exception (`exec_lSys`, `exec_lTrap`), which is entered through its row of the table, or is
the fault, as every raise (`raisedIn_raise`). -/
theorem systemCallAndTrap : Obligations.SystemCallAndTrap := by
  unfold Obligations.SystemCallAndTrap
  intro s k hd
  rw [exec_lSys hd, exec_lTrap hd]
  exact ⟨raisedIn_raise s .systemCall, raisedIn_raise s .trap⟩

end

section
/-! PROOFS. The instructions whose accumulators the spec leaves undefined (O53): the policy of the configuration decides how each
ends, and an execution writes free values to the accumulator alone. -/

open Sys2Proof Sys2Proof.Machine

namespace Sys2Proof.Machine

variable {w : List Part} {s t : State} {i : Instr}

theorem Frame.setFpmadd (h : Frame w s t) (hi lo : BitVec 32) (hw : .fpmadd ∈ w) :
    Frame w s { t with fpmaddhi := hi, fpmaddlo := lo } := by
  obtain ⟨h1, h2, h3, h4, h5, h6, h7, h8, h9, h10, h11, h12, h13, -, h⟩ := h
  exact ⟨h1, h2, h3, h4, h5, h6, h7, h8, h9, h10, h11, h12, h13, fun n => absurd hw n, h⟩

theorem Frame.setVmac (h : Frame w s t) (hi lo : BitVec 64) (hw : .vmac ∈ w) :
    Frame w s { t with vmachi := hi, vmaclo := lo } := by
  obtain ⟨h1, h2, h3, h4, h5, h6, h7, h8, h9, h10, h11, h12, h13, h14, -, h⟩ := h
  exact ⟨h1, h2, h3, h4, h5, h6, h7, h8, h9, h10, h11, h12, h13, h14, fun n => absurd hw n, h⟩

/-- How `lf.madd.*` ends under each value of `FP_MADD` (R313, R314). -/
theorem fpMaddOp_outcomes (he : exec i s = fpMaddOp s) :
    (s.cfg.fpMadd = .illegal → RaisesIllegal i s) ∧
    (s.cfg.fpMadd = .refuse → exec i s = .refused .fpMaddUndefined) ∧
    (s.cfg.fpMadd = .free → ∃ fl, FpEnds i s [.fpmadd, .fpcsr, .draws] fl fun _ => True) := by
  unfold fpMaddOp at he
  refine ⟨fun hm => ?_, fun hm => ?_, fun hm => ?_⟩ <;> rw [hm] at he
  · exact raisesIllegal_of_exec he
  · exact he
  · exact ⟨_, fpEnds_of_exec he
      (((((Frame.refl _ s).spend (by simp)).setFpmadd _ _ (by simp)).spend (by simp)).setFpcsr _ (by simp))
      rfl rfl rfl rfl fun _ _ _ => trivial⟩

/-- How `lv.madds.h` and `lv.msubs.h` end under each value of `LV_VMAC` (R430, R437). -/
theorem vecMacOp_outcomes {rD : RegNum} (hp : hasVector s.cfg = true) (he : exec i s = vecMacOp s rD) :
    (s.cfg.lvVmac = .illegal → RaisesIllegal i s) ∧
    (s.cfg.lvVmac = .refuse → exec i s = .refused .vmacUndefined) ∧
    (s.cfg.lvVmac = .free → Completes i s [.reg rD, .vmac, .draws] fun _ => True) := by
  rw [vecMacOp, whenPresent_true hp] at he
  refine ⟨fun hm => ?_, fun hm => ?_, fun hm => ?_⟩ <;> rw [hm] at he
  · exact raisesIllegal_of_exec he
  · exact he
  · have hhi := (((Frame.refl [.reg rD, .vmac, .draws] s).setReg rD s.free (by simp)).spend (by simp)).setVmac
      (s.setReg rD s.free).spend.free s.vmaclo (by simp)
    exact completes_finish he (((hhi.spend (by simp)).setVmac _ _ (by simp)).spend (by simp)) rfl rfl trivial

end Sys2Proof.Machine

/-- Settles O53: where its unit is there, each instruction is `fpMaddOp` or `vecMacOp`, which end as the policy says
(`fpMaddOp_outcomes`, `vecMacOp_outcomes`). -/
theorem undefinedAccumulators : Obligations.UndefinedAccumulators := by
  unfold Obligations.UndefinedAccumulators
  intro s rD rA rB
  simp only [List.forall_mem_cons, List.not_mem_nil, false_implies, implies_true, and_true]
  refine ⟨⟨fun hp => ?_, fun hp => ?_⟩, fun hv hx => ?_⟩
  · exact fpMaddOp_outcomes (whenPresent_true hp _)
  · exact fpMaddOp_outcomes (whenPresent_true hp _)
  · have hp := (hasVector_iff s.cfg).2 ⟨hv, hx⟩
    exact ⟨vecMacOp_outcomes hp rfl, vecMacOp_outcomes hp rfl⟩

end

section
/-! PROOFS. The results of NaNs, infinities and zero divisors (O55): what each operation of the default record delivers on each
class of operands, the difference as the sum with the negative. -/

open Sys2Proof Sys2Proof.Machine

namespace Sys2Proof.Machine

variable {f : FpFormat} {a b x : Nat}

/-! ### Classes of patterns -/

theorem fpIsNan_iff (f : FpFormat) (x : Nat) : fpIsNan f x = true ↔ fpExp f x = f.emax ∧ fpFrac f x ≠ 0 := by simp [fpIsNan]

theorem fpIsInf_iff (f : FpFormat) (x : Nat) : fpIsInf f x = true ↔ fpExp f x = f.emax ∧ fpFrac f x = 0 := by simp [fpIsInf]

theorem not_nan_of_inf (hx : fpIsInf f x = true) : fpIsNan f x = false := by
  rw [← Bool.not_eq_true, fpIsNan_iff]
  exact fun hn => hn.2 ((fpIsInf_iff f x).1 hx).2

theorem not_zero_of_inf (h : f.Ok) (hx : fpIsInf f x = true) : fpIsZero f x = false := by
  have hexp := ((fpIsInf_iff f x).1 hx).1
  have hemax := h.emax_pos
  simp only [fpIsZero, Bool.and_eq_false_iff, beq_eq_false_iff_ne]
  omega

/-- A zero is neither a NaN nor an infinity. -/
theorem exp_ne_emax_of_zero (h : f.Ok) (hx : fpIsZero f x = true) : fpExp f x ≠ f.emax := by
  have hemax := h.emax_pos
  simp only [fpIsZero, Bool.and_eq_true, beq_iff_eq] at hx
  omega

theorem not_nan_of_zero (h : f.Ok) (hx : fpIsZero f x = true) : fpIsNan f x = false := by
  rw [← Bool.not_eq_true, fpIsNan_iff]
  exact fun hn => exp_ne_emax_of_zero h hx hn.1

theorem not_inf_of_zero (h : f.Ok) (hx : fpIsZero f x = true) : fpIsInf f x = false := by
  rw [← Bool.not_eq_true, fpIsInf_iff]
  exact fun hn => exp_ne_emax_of_zero h hx hn.1

/-- The magnitude bits of an infinity. -/
theorem bits_of_inf (h : f.Ok) (hx : x < 2 ^ f.width) (hi : fpIsInf f x = true) : x % 2 ^ (f.width - 1) = fpInfMag f := by
  have hlt : x % 2 ^ (f.width - 1) < 2 ^ (f.width - 1) := Nat.mod_lt _ (Nat.two_pow_pos _)
  obtain ⟨hexp, hfrac⟩ := (fpIsInf_iff f x).1 hi
  rw [← fpPattern_self h hx, fpExp_pattern h _ hlt] at hexp
  rw [← fpPattern_self h hx, fpFrac_pattern h] at hfrac
  have hdm := Nat.div_add_mod' (x % 2 ^ (f.width - 1)) (2 ^ f.frac)
  rw [hexp, hfrac] at hdm
  exact hdm.symm

/-! ### The negative of a pattern -/

theorem fpExp_negate (h : f.Ok) (hx : x < 2 ^ f.width) : fpExp f (fpNegate f x) = fpExp f x := by
  have hlt : x % 2 ^ (f.width - 1) < 2 ^ (f.width - 1) := Nat.mod_lt _ (Nat.two_pow_pos _)
  rw [fpNegate, fpExp_pattern h _ hlt, ← fpExp_pattern h (fpNeg f x) hlt, fpPattern_self h hx]

theorem fpFrac_negate (h : f.Ok) (hx : x < 2 ^ f.width) : fpFrac f (fpNegate f x) = fpFrac f x := by
  rw [fpNegate, fpFrac_pattern h, ← fpFrac_pattern h (fpNeg f x), fpPattern_self h hx]

theorem fpNeg_negate (f : FpFormat) (x : Nat) : fpNeg f (fpNegate f x) = !fpNeg f x :=
  fpNeg_pattern _ (Nat.mod_lt _ (Nat.two_pow_pos _))

theorem fpIsNan_negate (h : f.Ok) (hx : x < 2 ^ f.width) : fpIsNan f (fpNegate f x) = fpIsNan f x := by
  simp only [fpIsNan, fpExp_negate h hx, fpFrac_negate h hx]

theorem fpIsSnan_negate (h : f.Ok) (hx : x < 2 ^ f.width) : fpIsSnan f (fpNegate f x) = fpIsSnan f x := by
  simp only [fpIsSnan, fpIsNan_negate h hx, fpFrac_negate h hx]

theorem fpIsInf_negate (h : f.Ok) (hx : x < 2 ^ f.width) : fpIsInf f (fpNegate f x) = fpIsInf f x := by
  simp only [fpIsInf, fpExp_negate h hx, fpFrac_negate h hx]

theorem fpNegate_of_inf (h : f.Ok) (hx : x < 2 ^ f.width) (hi : fpIsInf f x = true) :
    fpNegate f x = fpPattern f (!fpNeg f x) (fpInfMag f) := by
  rw [fpNegate, bits_of_inf h hx hi]

/-! ### Kinds of results -/

/-- A quiet NaN. -/
def FpQuiet (f : FpFormat) (r : FpResult) : Prop := fpIsNan f r.bits = true ∧ fpIsSnan f r.bits = false

/-- The result of an invalid operation. -/
def FpInvalid (f : FpFormat) (r : FpResult) : Prop := FpQuiet f r ∧ r.flags = flIVF

/-- The pattern `v`, without a flag. -/
def FpExactly (r : FpResult) (v : Nat) : Prop := r.bits = v ∧ r.flags = 0#9

/-- A free NaN is quiet: all ones in the exponent, and the top fraction bit set. -/
theorem freeNan_quiet (h : f.Ok) (free : BitVec 64) : fpIsNan f (freeNan f free) = true ∧ fpIsSnan f (freeNan f free) = false := by
  have hhalf : 0 < 2 ^ (f.frac - 1) := Nat.two_pow_pos _
  have hpay : free.toNat % 2 ^ (f.frac - 1) < 2 ^ (f.frac - 1) := Nat.mod_lt _ hhalf
  have hlow : 2 ^ (f.frac - 1) + free.toNat % 2 ^ (f.frac - 1) < 2 ^ f.frac := by rw [h.pow_frac]; omega
  have hexp : fpExp f (freeNan f free) = f.emax := by
    rw [freeNan, fpExp_pattern h _ (freeNan_mag_lt h _), fpInfMag, Nat.add_assoc, Nat.add_comm,
      Nat.add_mul_div_right _ _ (Nat.two_pow_pos _), Nat.div_eq_of_lt hlow, Nat.zero_add]
  have hfrac : fpFrac f (freeNan f free) = 2 ^ (f.frac - 1) + free.toNat % 2 ^ (f.frac - 1) := by
    rw [freeNan, fpFrac_pattern h, fpInfMag, Nat.add_assoc, Nat.add_comm, Nat.add_mul_mod_self_right, Nat.mod_eq_of_lt hlow]
  have htop : fpFrac f (freeNan f free) / 2 ^ (f.frac - 1) ≠ 0 := by
    rw [hfrac, Nat.add_div_left _ hhalf]
    exact Nat.succ_ne_zero _
  exact ⟨(fpIsNan_iff f _).2 ⟨hexp, by omega⟩, by simp [fpIsSnan, htop]⟩

theorem fpInvalid_invalid (h : f.Ok) (free : BitVec 64) : FpInvalid f (fpInvalid f free) := ⟨freeNan_quiet h free, rfl⟩

theorem fpExact_exactly (v : Nat) : FpExactly (fpExact v) v := ⟨rfl, rfl⟩

/-- What a NaN operand gives, `signalling` being whether one is (R300). -/
theorem fpNanOperand_quiet (h : f.Ok) (free : BitVec 64) (na nb : Bool) :
    FpQuiet f (fpNanOperand f free (na || nb)) ∧
      (na = false ∧ nb = false → (fpNanOperand f free (na || nb)).flags = 0#9) ∧
      (na = true ∨ nb = true → (fpNanOperand f free (na || nb)).flags = flIVF) := by
  refine ⟨freeNan_quiet h free, fun hq => ?_, fun hs => ?_⟩
  · simp [fpNanOperand, hq, flagIf]
  · simp [fpNanOperand, Bool.or_eq_true_iff.2 hs, flagIf]

/-! ### The operations, by the class of their operands -/

section
variable (c : Config) (rm : Rounding) (free : BitVec 64)

/-- Every operation looks for a NaN first; the difference takes its second operand as it is (R300, R331). -/
theorem fpOps_nan (h : f.Ok) (hb : b < 2 ^ f.width) (hn : fpIsNan f a = true ∨ fpIsNan f b = true) :
    ∀ r ∈ [fpAdd f c rm free a b, fpSub f c rm free a b, fpMul f c rm free a b, fpDiv f c rm free a b, fpRem f c rm free a b],
      r = fpNanOperand f free (fpIsSnan f a || fpIsSnan f b) := by
  have hor : (fpIsNan f a || fpIsNan f b) = true := Bool.or_eq_true_iff.2 hn
  simp only [List.forall_mem_cons, List.not_mem_nil, false_implies, implies_true, and_true]
  refine ⟨if_pos hor, ?_, if_pos hor, if_pos hor, if_pos hor⟩
  rw [fpSub, fpAdd, fpIsNan_negate h hb, fpIsSnan_negate h hb, if_pos hor]

/-- The sum with an infinity on the left (R303). -/
theorem fpAdd_inf_left (ha : fpIsInf f a = true) (hb : fpIsNan f b = false) :
    fpAdd f c rm free a b = if fpIsInf f b && fpNeg f a != fpNeg f b then fpInvalid f free else fpExact a := by
  simp [fpAdd, not_nan_of_inf ha, hb, ha]

theorem fpAdd_inf_right (ha : FpFinite f a) (hb : fpIsInf f b = true) : fpAdd f c rm free a b = fpExact b := by
  simp [fpAdd, ha.not_nan, ha.not_inf, not_nan_of_inf hb, hb]

/-- The difference with an infinity on the left (R331). -/
theorem fpSub_inf_left (h : f.Ok) (hw : b < 2 ^ f.width) (ha : fpIsInf f a = true) (hb : fpIsNan f b = false) :
    fpSub f c rm free a b = if fpIsInf f b && fpNeg f a == fpNeg f b then fpInvalid f free else fpExact a := by
  rw [fpSub, fpAdd_inf_left c rm free ha (by rwa [fpIsNan_negate h hw]), fpIsInf_negate h hw, fpNeg_negate]
  cases fpNeg f a <;> cases fpNeg f b <;> rfl

theorem fpSub_inf_right (h : f.Ok) (hw : b < 2 ^ f.width) (ha : FpFinite f a) (hb : fpIsInf f b = true) :
    fpSub f c rm free a b = fpExact (fpPattern f (!fpNeg f b) (fpInfMag f)) := by
  rw [fpSub, fpAdd_inf_right c rm free ha (by rwa [fpIsInf_negate h hw]), fpNegate_of_inf h hw hb]

/-- The product where one operand is an infinity (R315). -/
theorem fpMul_inf (ha : fpIsNan f a = false) (hb : fpIsNan f b = false) (hi : fpIsInf f a = true ∨ fpIsInf f b = true) :
    fpMul f c rm free a b =
      if fpIsZero f a || fpIsZero f b then fpInvalid f free else fpExact (fpPattern f (fpNeg f a != fpNeg f b) (fpInfMag f)) := by
  have hor : (fpIsInf f a || fpIsInf f b) = true := Bool.or_eq_true_iff.2 hi
  simp [fpMul, ha, hb, hor]

/-- The quotient of an infinity (R307). -/
theorem fpDiv_inf_left (ha : fpIsInf f a = true) (hb : fpIsNan f b = false) :
    fpDiv f c rm free a b =
      if fpIsInf f b then fpInvalid f free else fpExact (fpPattern f (fpNeg f a != fpNeg f b) (fpInfMag f)) := by
  simp [fpDiv, not_nan_of_inf ha, hb, ha]

theorem fpDiv_inf_right (ha : FpFinite f a) (hb : fpIsInf f b = true) :
    fpDiv f c rm free a b = fpExact (fpPattern f (fpNeg f a != fpNeg f b) 0) := by
  simp [fpDiv, ha.not_nan, ha.not_inf, not_nan_of_inf hb, hb]

/-- The quotient by zero (R307). -/
theorem fpDiv_zero (h : f.Ok) (ha : FpFinite f a) (hb : fpIsZero f b = true) :
    fpDiv f c rm free a b =
      if fpIsZero f a then fpInvalid f free else ⟨fpPattern f (fpNeg f a != fpNeg f b) (fpInfMag f), flDZF, false⟩ := by
  simp [fpDiv, ha.not_nan, ha.not_inf, not_nan_of_zero h hb, not_inf_of_zero h hb, hb]

/-- The remainder of an infinity or by zero (R317, R318). -/
theorem fpRem_invalid (ha : fpIsNan f a = false) (hb : fpIsNan f b = false) (hi : fpIsInf f a = true ∨ fpIsZero f b = true) :
    fpRem f c rm free a b = fpInvalid f free := by
  have hor : (fpIsInf f a || fpIsZero f b) = true := Bool.or_eq_true_iff.2 hi
  simp [fpRem, ha, hb, hor]

theorem fpRem_inf_right (h : f.Ok) (ha : FpFinite f a) (hb : fpIsInf f b = true) : fpRem f c rm free a b = fpExact a := by
  simp [fpRem, ha.not_nan, ha.not_inf, not_nan_of_inf hb, not_zero_of_inf h hb, hb]

/-! ### What each pair of classes gives -/

theorem fpSpecial_inf_inf (h : f.Ok) (hw : b < 2 ^ f.width) (ha : fpIsInf f a = true) (hb : fpIsInf f b = true) :
    ((fpNeg f a != fpNeg f b) = true → FpInvalid f (fpAdd f c rm free a b) ∧ FpExactly (fpSub f c rm free a b) a) ∧
    ((fpNeg f a != fpNeg f b) = false → FpExactly (fpAdd f c rm free a b) a ∧ FpInvalid f (fpSub f c rm free a b)) ∧
    FpExactly (fpMul f c rm free a b) (fpPattern f (fpNeg f a != fpNeg f b) (fpInfMag f)) ∧
    FpInvalid f (fpDiv f c rm free a b) ∧ FpInvalid f (fpRem f c rm free a b) := by
  have hna := not_nan_of_inf ha
  have hnb := not_nan_of_inf hb
  rw [fpAdd_inf_left c rm free ha hnb, fpSub_inf_left c rm free h hw ha hnb, fpMul_inf c rm free hna hnb (.inl ha),
    fpDiv_inf_left c rm free ha hnb, fpRem_invalid c rm free hna hnb (.inl ha), not_zero_of_inf h ha, not_zero_of_inf h hb, hb]
  refine ⟨fun hne => ?_, fun heq => ?_, fpExact_exactly _, fpInvalid_invalid h free, fpInvalid_invalid h free⟩
  · rw [if_pos (by simpa using hne), if_neg (by simpa using hne)]
    exact ⟨fpInvalid_invalid h free, fpExact_exactly a⟩
  · rw [if_neg (by simpa using heq), if_pos (by simpa using heq)]
    exact ⟨fpExact_exactly a, fpInvalid_invalid h free⟩

theorem fpSpecial_inf_finite (h : f.Ok) (ha : fpIsInf f a = true) (hb : FpFinite f b) :
    FpExactly (fpAdd f c rm free a b) a ∧ FpExactly (fpSub f c rm free a b) a ∧
    (fpIsZero f b = true → FpInvalid f (fpMul f c rm free a b)) ∧
    (fpIsZero f b = false → FpExactly (fpMul f c rm free a b) (fpPattern f (fpNeg f a != fpNeg f b) (fpInfMag f))) ∧
    FpExactly (fpDiv f c rm free a b) (fpPattern f (fpNeg f a != fpNeg f b) (fpInfMag f)) ∧
    FpInvalid f (fpRem f c rm free a b) := by
  have hna := not_nan_of_inf ha
  rw [fpAdd_inf_left c rm free ha hb.not_nan, fpSub_inf_left c rm free h hb.1 ha hb.not_nan,
    fpMul_inf c rm free hna hb.not_nan (.inl ha), fpDiv_inf_left c rm free ha hb.not_nan,
    fpRem_invalid c rm free hna hb.not_nan (.inl ha), not_zero_of_inf h ha, hb.not_inf]
  refine ⟨fpExact_exactly a, fpExact_exactly a, fun hz => ?_, fun hz => ?_, fpExact_exactly _, fpInvalid_invalid h free⟩ <;> rw [hz]
  · exact fpInvalid_invalid h free
  · exact fpExact_exactly _

theorem fpSpecial_finite_inf (h : f.Ok) (hw : b < 2 ^ f.width) (ha : FpFinite f a) (hb : fpIsInf f b = true) :
    FpExactly (fpAdd f c rm free a b) b ∧ FpExactly (fpSub f c rm free a b) (fpPattern f (!fpNeg f b) (fpInfMag f)) ∧
    (fpIsZero f a = true → FpInvalid f (fpMul f c rm free a b)) ∧
    (fpIsZero f a = false → FpExactly (fpMul f c rm free a b) (fpPattern f (fpNeg f a != fpNeg f b) (fpInfMag f))) ∧
    FpExactly (fpDiv f c rm free a b) (fpPattern f (fpNeg f a != fpNeg f b) 0) ∧ FpExactly (fpRem f c rm free a b) a := by
  rw [fpAdd_inf_right c rm free ha hb, fpSub_inf_right c rm free h hw ha hb,
    fpMul_inf c rm free ha.not_nan (not_nan_of_inf hb) (.inr hb), fpDiv_inf_right c rm free ha hb, fpRem_inf_right c rm free h ha hb,
    not_zero_of_inf h hb]
  refine ⟨fpExact_exactly b, fpExact_exactly _, fun hz => ?_, fun hz => ?_, fpExact_exactly _, fpExact_exactly a⟩ <;> rw [hz]
  · exact fpInvalid_invalid h free
  · exact fpExact_exactly _

theorem fpSpecial_by_zero (h : f.Ok) (ha : FpFinite f a) (hb : fpIsZero f b = true) :
    FpInvalid f (fpRem f c rm free a b) ∧
    (fpIsZero f a = true → FpInvalid f (fpDiv f c rm free a b)) ∧
    (fpIsZero f a = false →
      (fpDiv f c rm free a b).bits = fpPattern f (fpNeg f a != fpNeg f b) (fpInfMag f) ∧ (fpDiv f c rm free a b).flags = flDZF) := by
  rw [fpRem_invalid c rm free ha.not_nan (not_nan_of_zero h hb) (.inr hb), fpDiv_zero c rm free h ha hb]
  refine ⟨fpInvalid_invalid h free, fun hz => ?_, fun hz => ?_⟩ <;> rw [hz]
  · exact fpInvalid_invalid h free
  · exact ⟨rfl, rfl⟩

end

end Sys2Proof.Machine

/-- Settles O55: a NaN is looked for first (`fpOps_nan`), and each other pair of classes has its lemma. -/
theorem floatSpecialResults : Obligations.FloatSpecialResults := by
  unfold Obligations.FloatSpecialResults
  intro f c rm free a b hf _ hb
  have h : f.Ok := by
    obtain rfl | rfl := hf
    · exact fpSingle_ok
    · exact fpDouble_ok
  refine ⟨fun hn r hr => ?_, fpSpecial_inf_inf c rm free h hb, fpSpecial_inf_finite c rm free h,
    fpSpecial_finite_inf c rm free h hb, fpSpecial_by_zero c rm free h⟩
  rw [fpOps_nan c rm free h hb hn r hr]
  exact fpNanOperand_quiet h free _ _

end

section
/-! PROOFS. The packed instructions lane by lane (O56, O57, O58): the ending of an instruction that works on pairs of lanes, then
what each operation on two lanes gives as a number. -/

open Sys2Proof Sys2Proof.Machine

namespace Sys2Proof.Machine

variable {s : State} {i : Instr} {rD rA rB : RegNum} {w : Nat} {f : BitVec w → BitVec w → BitVec w}

/-! ### Working on pairs of lanes (R351) -/

/-- `vecLanes` completes with any property of each lane that its function of two lanes has. -/
theorem vecLanes_completes {P : Nat → Nat → Prop} (hv : s.cfg.hasVdx64 = true) (hx : s.cfg.xlen = .x64)
    (he : exec i s = vecLanes w f s rD rA rB) (hP : ∀ k, P k (f (lane w k (s.reg64 rA)) (lane w k (s.reg64 rB))).toNat) :
    Completes i s [.reg rD] fun t => ∀ k < 64 / w, P k (elemU w k (t.uval rD)) := by
  refine vecResult_completes hv hx he fun t _ ht k hk => ?_
  rw [ht, mapLanes2, elemU_packLanes _ (laneCount_mul w) hk]
  exact hP k

/-- `v` is `m` under the condition `c`, and `n` otherwise. -/
def Selects (c : Prop) (m n v : Nat) : Prop := (c → v = m) ∧ (¬ c → v = n)

theorem selects_ite {c d : Prop} [Decidable d] (h : d ↔ c) (m n : Nat) : Selects c m n (if d then m else n) :=
  ⟨fun hc => if_pos (h.2 hc), fun hc => if_neg (mt h.1 hc)⟩

theorem lane_reg64_toNat (hx : s.cfg.xlen = .x64) (k : Nat) (r : RegNum) :
    (lane w k (s.reg64 r)).toNat = elemU w k (s.uval r) := by
  rw [lane_toNat, reg64_toNat hx]

theorem lane_reg64_toInt (hx : s.cfg.xlen = .x64) (hw : 0 < w) (k : Nat) (r : RegNum) :
    (lane w k (s.reg64 r)).toInt = elemS w k (s.uval r) := by
  rw [lane_toInt hw, reg64_toNat hx]

/-- A packed operation whose function of two lanes is `g` of their unsigned values. -/
theorem vecLanes_unsigned {g : Nat → Nat → Nat} (hv : s.cfg.hasVdx64 = true) (hx : s.cfg.xlen = .x64)
    (he : exec i s = vecLanes w f s rD rA rB) (hg : ∀ x y, (f x y).toNat = g x.toNat y.toNat) :
    VectorCompletes i s rD w fun k => g (elemU w k (s.uval rA)) (elemU w k (s.uval rB)) :=
  vecLanes_completes (P := fun k v => v = g (elemU w k (s.uval rA)) (elemU w k (s.uval rB))) hv hx he fun k => by
    rw [hg, lane_reg64_toNat hx, lane_reg64_toNat hx]

/-- A packed operation whose function of two lanes is `g` of their signed values. -/
theorem vecLanes_signed {g : Int → Int → Nat} (hw : 0 < w) (hv : s.cfg.hasVdx64 = true) (hx : s.cfg.xlen = .x64)
    (he : exec i s = vecLanes w f s rD rA rB) (hg : ∀ x y, (f x y).toNat = g x.toInt y.toInt) :
    VectorCompletes i s rD w fun k => g (elemS w k (s.uval rA)) (elemS w k (s.uval rB)) :=
  vecLanes_completes (P := fun k v => v = g (elemS w k (s.uval rA)) (elemS w k (s.uval rB))) hv hx he fun k => by
    rw [hg, lane_reg64_toInt hx hw, lane_reg64_toInt hx hw]

/-! ### Modular and saturated results (R352) -/

theorem toNat_ofNat_wrap (w n : Nat) : (BitVec.ofNat w n).toNat = wrap w n := by
  rw [wrap_natCast, BitVec.toNat_ofNat]

/-- An integer saturated as unsigned: a negative one becomes zero. -/
theorem satUnsigned_toNat_int (w : Nat) (e : Int) : (satUnsigned w e).toNat = min (2 ^ w - 1) e.toNat := by
  have hneg : satUnsigned w e = satUnsigned w (e.toNat : Int) := by
    rw [satUnsigned, satUnsigned, max_comm 0 e, ← Int.toNat_eq_max, max_eq_right (Int.natCast_nonneg _)]
  rw [hneg, satUnsigned_toNat]

section
variable (hv : s.cfg.hasVdx64 = true) (hx : s.cfg.xlen = .x64)
include hv hx

theorem vecAdd_modular (he : exec i s = vecLanes w (fun x y => BitVec.ofNat w (x.toNat + y.toNat)) s rD rA rB) :
    VectorCompletes i s rD w fun k => wrap w ((elemU w k (s.uval rA) : Int) + elemU w k (s.uval rB)) :=
  vecLanes_unsigned (g := fun a b => wrap w ((a : Int) + b)) hv hx he fun x y => by
    rw [toNat_ofNat_wrap, Nat.cast_add]

theorem vecSub_modular (he : exec i s = vecLanes w (fun x y => BitVec.ofInt w ((x.toNat : Int) - y.toNat)) s rD rA rB) :
    VectorCompletes i s rD w fun k => wrap w ((elemU w k (s.uval rA) : Int) - elemU w k (s.uval rB)) :=
  vecLanes_unsigned (g := fun a b => wrap w ((a : Int) - b)) hv hx he fun _ _ => toNat_ofInt_wrap _ _

theorem vec_satSigned {op : Int → Int → Int} (hw : 0 < w)
    (he : exec i s = vecLanes w (fun x y => satSigned w (op x.toInt y.toInt)) s rD rA rB) :
    VectorCompletes i s rD w fun k =>
      wrap w (min (2 ^ (w - 1) - 1) (max (-(2 ^ (w - 1))) (op (elemS w k (s.uval rA)) (elemS w k (s.uval rB))))) :=
  vecLanes_signed (g := fun a b => wrap w (min (2 ^ (w - 1) - 1) (max (-(2 ^ (w - 1))) (op a b)))) hw hv hx he
    fun _ _ => satSigned_toNat _ _

theorem vecAdd_satUnsigned (he : exec i s = vecLanes w (fun x y => satUnsigned w ((x.toNat : Int) + y.toNat)) s rD rA rB) :
    VectorCompletes i s rD w fun k => min (2 ^ w - 1) (elemU w k (s.uval rA) + elemU w k (s.uval rB)) :=
  vecLanes_unsigned (g := fun a b => min (2 ^ w - 1) (a + b)) hv hx he fun x y => by
    rw [satUnsigned_toNat_int, ← Nat.cast_add, Int.toNat_natCast]

/-- The unsigned difference saturates at zero, as the subtraction of naturals does. -/
theorem vecSub_satUnsigned (he : exec i s = vecLanes w (fun x y => satUnsigned w ((x.toNat : Int) - y.toNat)) s rD rA rB) :
    VectorCompletes i s rD w fun k => min (2 ^ w - 1) (elemU w k (s.uval rA) - elemU w k (s.uval rB)) :=
  vecLanes_unsigned (g := fun a b => min (2 ^ w - 1) (a - b)) hv hx he fun x y => by
    rw [satUnsigned_toNat_int, Int.toNat_sub]

end

/-! ### Compares (R353, R354) -/

/-- Element `k` of a register as the number it is compared as: signed under `LV_CMP_SIGNED` (R353). -/
def elemCmp (w : Nat) (s : State) (k v : Nat) : Int := if s.cfg.lvCmpSigned then elemS w k v else elemU w k v

theorem elemInt_lane_reg64 (hx : s.cfg.xlen = .x64) (hw : 0 < w) (k : Nat) (r : RegNum) :
    elemInt s.cfg.lvCmpSigned (lane w k (s.reg64 r)) = elemCmp w s k (s.uval r) := by
  rw [elemInt_lane hw, reg64_toNat hx, elemCmp]

/-- A compare of the model decides the relation `rel`. -/
def Rel.Decides (r : Rel) (rel : Int → Int → Prop) : Prop := ∀ a b, r.holds a b = true ↔ rel a b

theorem Rel.eq_decides : Rel.Decides .eq fun a b => a = b := fun _ _ => beq_iff_eq
theorem Rel.ne_decides : Rel.Decides .ne fun a b => a ≠ b := fun _ _ => bne_iff_ne
theorem Rel.gt_decides : Rel.Decides .gt fun a b => b < a := fun _ _ => decide_eq_true_iff
theorem Rel.ge_decides : Rel.Decides .ge fun a b => b ≤ a := fun _ _ => decide_eq_true_iff
theorem Rel.lt_decides : Rel.Decides .lt fun a b => a < b := fun _ _ => decide_eq_true_iff
theorem Rel.le_decides : Rel.Decides .le fun a b => a ≤ b := fun _ _ => decide_eq_true_iff

/-- The relation on element `k` of two registers (R353). -/
def ElemHolds (w : Nat) (rel : Int → Int → Prop) (s : State) (rA rB : RegNum) (k : Nat) : Prop :=
  rel (elemCmp w s k (s.uval rA)) (elemCmp w s k (s.uval rB))

section
variable {r : Rel} {rel : Int → Int → Prop} (hr : r.Decides rel) (hw : 0 < w) (hx : s.cfg.xlen = .x64)
include hr hw hx

theorem elemRel_lane_iff (k : Nat) :
    elemRel s.cfg.lvCmpSigned r (lane w k (s.reg64 rA)) (lane w k (s.reg64 rB)) = true ↔ ElemHolds w rel s rA rB k := by
  rw [elemRel, hr, elemInt_lane_reg64 hx hw, elemInt_lane_reg64 hx hw, ElemHolds]

theorem allLanes_iff :
    allLanes w s.cfg.lvCmpSigned r (s.reg64 rA) (s.reg64 rB) = true ↔ ∀ k < 64 / w, ElemHolds w rel s rA rB k := by
  simp only [allLanes, List.all_eq_true, List.mem_range, elemRel_lane_iff hr hw hx, laneCount]

theorem anyLanes_iff :
    anyLanes w s.cfg.lvCmpSigned r (s.reg64 rA) (s.reg64 rB) = true ↔ ∃ k < 64 / w, ElemHolds w rel s rA rB k := by
  simp only [anyLanes, List.any_eq_true, List.mem_range, elemRel_lane_iff hr hw hx, laneCount]

theorem vecCmp_completes (hv : s.cfg.hasVdx64 = true)
    (he : exec i s = vecLanes w (fun x y => repl w (elemRel s.cfg.lvCmpSigned r x y)) s rD rA rB) :
    Completes i s [.reg rD] fun t => ∀ k < 64 / w, Selects (ElemHolds w rel s rA rB k) (2 ^ w - 1) 0 (elemU w k (t.uval rD)) := by
  refine vecLanes_completes hv hx he fun k => ?_
  rw [repl_toNat]
  exact selects_ite (elemRel_lane_iff hr hw hx k) _ _

end

/-- What `lv.all_*` and `lv.any_*` leave, `c` being the condition they test (R354). -/
def VecFlagged (s : State) (rD : RegNum) (c : Prop) (t : State) : Prop :=
  (c → t.uval rD = 2 ^ 64 - 1) ∧ (¬ c → t.uval rD = 0) ∧ (s.cfg.lvSetsF = true → (t.flagF = true ↔ c)) ∧
    (s.cfg.lvSetsF = false → t.flagF = s.flagF)

/-- What the three compares of one relation at one width do (R353, R354). -/
def VecCompares (w : Nat) (cmp all any : Instr) (rel : Int → Int → Prop) (s : State) (rD rA rB : RegNum) : Prop :=
  (Completes cmp s [.reg rD] fun t => ∀ k < 64 / w, Selects (ElemHolds w rel s rA rB k) (2 ^ w - 1) 0 (elemU w k (t.uval rD))) ∧
  Completes all s [.reg rD, .sr srF] (VecFlagged s rD (∀ k < 64 / w, ElemHolds w rel s rA rB k)) ∧
  Completes any s [.reg rD, .sr srF] (VecFlagged s rD (∃ k < 64 / w, ElemHolds w rel s rA rB k))

theorem vecCompares_of_exec {r : Rel} {rel : Int → Int → Prop} {cmp all any : Instr} (hr : r.Decides rel) (hw : 0 < w)
    (hv : s.cfg.hasVdx64 = true) (hx : s.cfg.xlen = .x64)
    (hcmp : exec cmp s = vecLanes w (fun x y => repl w (elemRel s.cfg.lvCmpSigned r x y)) s rD rA rB)
    (hall : exec all s = vecFlag s rD (allLanes w s.cfg.lvCmpSigned r (s.reg64 rA) (s.reg64 rB)))
    (hany : exec any s = vecFlag s rD (anyLanes w s.cfg.lvCmpSigned r (s.reg64 rA) (s.reg64 rB))) :
    VecCompares w cmp all any rel s rD rA rB :=
  ⟨vecCmp_completes hr hw hx hv hcmp, vecFlag_completes hv hx hall (allLanes_iff hr hw hx),
    vecFlag_completes hv hx hany (anyLanes_iff hr hw hx)⟩

/-! ### Maximum, minimum and average (R388, R431, R435) -/

/-- Lanes that compare as equal are the same. -/
theorem elemInt_inj {signed : Bool} {x y : BitVec w} (h : elemInt signed x = elemInt signed y) : x = y := by
  cases signed
  · exact BitVec.eq_of_toNat_eq (Int.natCast_inj.1 h)
  · exact BitVec.eq_of_toInt_eq h

/-- The larger of two lanes; where neither is smaller they are the same lane. -/
theorem elemMax_toNat (signed : Bool) (x y : BitVec w) :
    (elemMax signed x y).toNat = if elemInt signed x < elemInt signed y then y.toNat else x.toNat := by
  simp only [elemMax, elemRel, Rel.gt_decides _ _]
  obtain h | h | h := lt_trichotomy (elemInt signed x) (elemInt signed y)
  · rw [if_pos h, if_neg h.not_gt]
  · rw [elemInt_inj h, ite_self, ite_self]
  · rw [if_neg h.not_gt, if_pos h]

theorem elemMin_toNat (signed : Bool) (x y : BitVec w) :
    (elemMin signed x y).toNat = if elemInt signed x < elemInt signed y then x.toNat else y.toNat := by
  simp only [elemMin, elemRel, Rel.lt_decides _ _, apply_ite BitVec.toNat]

/-- The order of element `k` of two registers, on integers where it is signed and on naturals where not (R353). -/
def ElemLess (w : Nat) (s : State) (rA rB : RegNum) (k : Nat) : Prop :=
  if s.cfg.lvCmpSigned then elemS w k (s.uval rA) < elemS w k (s.uval rB) else elemU w k (s.uval rA) < elemU w k (s.uval rB)

theorem elemInt_lt_iff (hw : 0 < w) (hx : s.cfg.xlen = .x64) (k : Nat) :
    elemInt s.cfg.lvCmpSigned (lane w k (s.reg64 rA)) < elemInt s.cfg.lvCmpSigned (lane w k (s.reg64 rB)) ↔
      ElemLess w s rA rB k := by
  rw [elemInt_lane_reg64 hx hw, elemInt_lane_reg64 hx hw, elemCmp, elemCmp, ElemLess]
  split
  · exact Iff.rfl
  · exact Int.ofNat_lt

theorem vecMax_completes (hw : 0 < w) (hv : s.cfg.hasVdx64 = true) (hx : s.cfg.xlen = .x64)
    (he : exec i s = vecLanes w (elemMax s.cfg.lvCmpSigned) s rD rA rB) :
    Completes i s [.reg rD] fun t => ∀ k < 64 / w,
      Selects (ElemLess w s rA rB k) (elemU w k (s.uval rB)) (elemU w k (s.uval rA)) (elemU w k (t.uval rD)) := by
  refine vecLanes_completes hv hx he fun k => ?_
  rw [elemMax_toNat, lane_reg64_toNat hx, lane_reg64_toNat hx]
  exact selects_ite (elemInt_lt_iff hw hx k) _ _

theorem vecMin_completes (hw : 0 < w) (hv : s.cfg.hasVdx64 = true) (hx : s.cfg.xlen = .x64)
    (he : exec i s = vecLanes w (elemMin s.cfg.lvCmpSigned) s rD rA rB) :
    Completes i s [.reg rD] fun t => ∀ k < 64 / w,
      Selects (ElemLess w s rA rB k) (elemU w k (s.uval rA)) (elemU w k (s.uval rB)) (elemU w k (t.uval rD)) := by
  refine vecLanes_completes hv hx he fun k => ?_
  rw [elemMin_toNat, lane_reg64_toNat hx, lane_reg64_toNat hx]
  exact selects_ite (elemInt_lt_iff hw hx k) _ _

/-- Half a sum of two lanes fits a lane. -/
theorem elemAvg_exact_toNat (x y : BitVec w) : (elemAvg .exact x y).toNat = (x.toNat + y.toNat) / 2 := by
  have hx := x.isLt
  have hy := y.isLt
  rw [elemAvg, BitVec.toNat_ofNat, Nat.mod_eq_of_lt (by omega)]

theorem elemAvg_wrap_toNat (x y : BitVec w) : (elemAvg .wrap x y).toNat = (x.toNat + y.toNat) % 2 ^ w / 2 := by
  have hlt : (x.toNat + y.toNat) % 2 ^ w < 2 ^ w := Nat.mod_lt _ (Nat.two_pow_pos w)
  rw [elemAvg, BitVec.toNat_ofNat, Nat.mod_eq_of_lt (by omega)]

theorem elemAvg_signed_toNat (x y : BitVec w) : (elemAvg .signed x y).toNat = wrap w ((x.toInt + y.toInt) / 2) :=
  toNat_ofInt_wrap _ _

/-- Element `k` of the average, under each value of `LV_AVG` (R388). -/
def ElemAverage (w : Nat) (s : State) (rA rB : RegNum) (k v : Nat) : Prop :=
  (s.cfg.lvAvg = .exact → v = (elemU w k (s.uval rA) + elemU w k (s.uval rB)) / 2) ∧
  (s.cfg.lvAvg = .wrap → v = (elemU w k (s.uval rA) + elemU w k (s.uval rB)) % 2 ^ w / 2) ∧
  (s.cfg.lvAvg = .signed → v = wrap w ((elemS w k (s.uval rA) + elemS w k (s.uval rB)) / 2))

theorem vecAvg_completes (hw : 0 < w) (hv : s.cfg.hasVdx64 = true) (hx : s.cfg.xlen = .x64)
    (he : exec i s = vecLanes w (elemAvg s.cfg.lvAvg) s rD rA rB) :
    Completes i s [.reg rD] fun t => ∀ k < 64 / w, ElemAverage w s rA rB k (elemU w k (t.uval rD)) := by
  refine vecLanes_completes hv hx he fun k => ⟨fun h => ?_, fun h => ?_, fun h => ?_⟩
  · rw [h, elemAvg_exact_toNat, lane_reg64_toNat hx, lane_reg64_toNat hx]
  · rw [h, elemAvg_wrap_toNat, lane_reg64_toNat hx, lane_reg64_toNat hx]
  · rw [h, elemAvg_signed_toNat, lane_reg64_toInt hx hw, lane_reg64_toInt hx hw]

/-! ### Logic on 64 bits (R375, R439 to R441, R469) -/

theorem vecLogic_completes {v : BitVec 64} {n : Nat} (hv : s.cfg.hasVdx64 = true) (hx : s.cfg.xlen = .x64)
    (he : exec i s = vecResult s rD v) (hn : v.toNat = n) : Completes i s [.reg rD] fun t => t.uval rD = n :=
  vecResult_completes hv hx he fun _ _ ht => ht.trans hn

theorem reg64_and_toNat (hx : s.cfg.xlen = .x64) : (s.reg64 rA &&& s.reg64 rB).toNat = s.uval rA &&& s.uval rB := by
  rw [BitVec.toNat_and, reg64_toNat hx, reg64_toNat hx]

theorem reg64_or_toNat (hx : s.cfg.xlen = .x64) : (s.reg64 rA ||| s.reg64 rB).toNat = s.uval rA ||| s.uval rB := by
  rw [BitVec.toNat_or, reg64_toNat hx, reg64_toNat hx]

theorem reg64_xor_toNat (hx : s.cfg.xlen = .x64) : (s.reg64 rA ^^^ s.reg64 rB).toNat = s.uval rA ^^^ s.uval rB := by
  rw [BitVec.toNat_xor, reg64_toNat hx, reg64_toNat hx]

end Sys2Proof.Machine

/-- Settles O56: each instruction works on pairs of lanes, and its function of two lanes is the modular or saturated result. -/
theorem vectorArithmetic : Obligations.VectorArithmetic := by
  unfold Obligations.VectorArithmetic
  intro s rD rA rB hv hx
  simp only [List.forall_mem_cons, List.not_mem_nil, false_implies, implies_true, and_true]
  exact ⟨⟨vecAdd_modular hv hx rfl, vecAdd_modular hv hx rfl, vecSub_modular hv hx rfl, vecSub_modular hv hx rfl,
      vecAdd_modular hv hx rfl, vecAdd_modular hv hx rfl, vecSub_modular hv hx rfl, vecSub_modular hv hx rfl⟩,
    ⟨vec_satSigned (op := (· + ·)) hv hx (by decide) rfl, vec_satSigned (op := (· - ·)) hv hx (by decide) rfl,
      vec_satSigned (op := (· + ·)) hv hx (by decide) rfl, vec_satSigned (op := (· - ·)) hv hx (by decide) rfl,
      vec_satSigned (op := (· * ·)) hv hx (by decide) rfl⟩,
    ⟨vecAdd_satUnsigned hv hx rfl, vecSub_satUnsigned hv hx rfl, vecAdd_satUnsigned hv hx rfl, vecSub_satUnsigned hv hx rfl⟩⟩

/-- Settles O57: for each relation and width, the compare of two lanes decides the relation (`Rel.Decides`), and the three
instructions apply it lane by lane, to all lanes and to any (`vecCompares_of_exec`). -/
theorem vectorCompare : Obligations.VectorCompare := by
  unfold Obligations.VectorCompare
  intro s rD rA rB hv hx
  refine fun e he => show VecCompares e.1 e.2.1 e.2.2.1 e.2.2.2.1 e.2.2.2.2 s rD rA rB from ?_
  revert e
  simp only [List.forall_mem_cons, List.not_mem_nil, false_implies, implies_true, and_true]
  have h8 : 0 < 8 := by decide
  have h16 : 0 < 16 := by decide
  exact ⟨vecCompares_of_exec Rel.eq_decides h8 hv hx rfl rfl rfl, vecCompares_of_exec Rel.ne_decides h8 hv hx rfl rfl rfl,
    vecCompares_of_exec Rel.gt_decides h8 hv hx rfl rfl rfl, vecCompares_of_exec Rel.ge_decides h8 hv hx rfl rfl rfl,
    vecCompares_of_exec Rel.lt_decides h8 hv hx rfl rfl rfl, vecCompares_of_exec Rel.le_decides h8 hv hx rfl rfl rfl,
    vecCompares_of_exec Rel.eq_decides h16 hv hx rfl rfl rfl, vecCompares_of_exec Rel.ne_decides h16 hv hx rfl rfl rfl,
    vecCompares_of_exec Rel.gt_decides h16 hv hx rfl rfl rfl, vecCompares_of_exec Rel.ge_decides h16 hv hx rfl rfl rfl,
    vecCompares_of_exec Rel.lt_decides h16 hv hx rfl rfl rfl, vecCompares_of_exec Rel.le_decides h16 hv hx rfl rfl rfl⟩

/-- Settles O58: maximum, minimum and average by what they give on two lanes, at both widths; logic on the whole register. -/
theorem vectorSelectAndLogic : Obligations.VectorSelectAndLogic := by
  unfold Obligations.VectorSelectAndLogic
  intro s rD rA rB hv hx
  simp only [List.forall_mem_cons, List.not_mem_nil, false_implies, implies_true, and_true]
  have h8 : 0 < 8 := by decide
  have h16 : 0 < 16 := by decide
  refine ⟨⟨⟨vecMax_completes h8 hv hx rfl, vecMin_completes h8 hv hx rfl, vecAvg_completes h8 hv hx rfl⟩,
      ⟨vecMax_completes h16 hv hx rfl, vecMin_completes h16 hv hx rfl, vecAvg_completes h16 hv hx rfl⟩⟩,
    vecLogic_completes hv hx rfl (reg64_and_toNat hx), vecLogic_completes hv hx rfl (reg64_or_toNat hx),
    vecLogic_completes hv hx rfl (reg64_xor_toNat hx), vecLogic_completes hv hx rfl ?_, vecLogic_completes hv hx rfl ?_⟩
  · rw [BitVec.toNat_not, reg64_and_toNat hx]
  · rw [BitVec.toNat_not, reg64_or_toNat hx]

end

section
/-! PROOFS. Packed and whole-register shifts (O59), and packing, unpacking, merging and permuting (O60): what each operation gives
on a lane as a number, and where an instruction that moves lanes takes each from. -/

open Sys2Proof Sys2Proof.Machine

namespace Sys2Proof.Machine

variable {s : State} {i : Instr} {rD rA rB : RegNum} {w h : Nat}

/-! ### Shifts and rotates of lanes (R449 to R458) -/

/-- The bits that leave at the left come in at the right (R449). -/
theorem rotateLeft_toNat (v : BitVec w) {k : Nat} (hk : k < w) :
    (v.rotateLeft k).toNat = v.toNat * 2 ^ k % 2 ^ w + v.toNat / 2 ^ (w - k) := by
  have hsplit : 2 ^ w = 2 ^ (w - k) * 2 ^ k := by rw [← pow_add, Nat.sub_add_cancel hk.le]
  have hleft : v.toNat * 2 ^ k % 2 ^ w = 2 ^ k * (v.toNat % 2 ^ (w - k)) := by
    rw [hsplit, Nat.mul_mod_mul_right, mul_comm]
  have hright : v.toNat / 2 ^ (w - k) < 2 ^ k := Nat.div_lt_of_lt_mul (hsplit ▸ v.isLt)
  rw [BitVec.rotateLeft_eq_rotateLeftAux_of_lt hk, BitVec.rotateLeftAux, BitVec.toNat_or, shiftLeft_toNat, ushiftRight_toNat,
    hleft, Nat.two_pow_add_eq_or_of_lt hright]

section
variable (hv : s.cfg.hasVdx64 = true) (hx : s.cfg.xlen = .x64)
include hv hx

theorem vecShiftLeft_completes (he : exec i s = vecLanes w (fun x y => x <<< laneAmount y) s rD rA rB) :
    VectorCompletes i s rD w fun k => elemU w k (s.uval rA) * 2 ^ (elemU w k (s.uval rB) % w) % 2 ^ w :=
  vecLanes_unsigned (g := fun a b => a * 2 ^ (b % w) % 2 ^ w) hv hx he fun _ _ => shiftLeft_toNat ..

theorem vecShiftRight_completes (he : exec i s = vecLanes w (fun x y => x >>> laneAmount y) s rD rA rB) :
    VectorCompletes i s rD w fun k => elemU w k (s.uval rA) / 2 ^ (elemU w k (s.uval rB) % w) :=
  vecLanes_unsigned (g := fun a b => a / 2 ^ (b % w)) hv hx he fun _ _ => ushiftRight_toNat ..

/-- The lane that is shifted is signed, the amount is not. -/
theorem vecShiftArith_completes (hw : 0 < w) (he : exec i s = vecLanes w (fun x y => x.sshiftRight (laneAmount y)) s rD rA rB) :
    VectorCompletes i s rD w fun k => wrap w (elemS w k (s.uval rA) / 2 ^ (elemU w k (s.uval rB) % w)) :=
  vecLanes_completes (P := fun k v => v = wrap w (elemS w k (s.uval rA) / 2 ^ (elemU w k (s.uval rB) % w))) hv hx he fun k => by
    rw [sshiftRight_toNat, laneAmount, lane_reg64_toInt hx hw, lane_reg64_toNat hx]

theorem vecRotate_completes (hw : 0 < w) (he : exec i s = vecLanes w (fun x y => x.rotateLeft (laneAmount y)) s rD rA rB) :
    VectorCompletes i s rD w fun k => elemU w k (s.uval rA) * 2 ^ (elemU w k (s.uval rB) % w) % 2 ^ w +
      elemU w k (s.uval rA) / 2 ^ (w - elemU w k (s.uval rB) % w) :=
  vecLanes_unsigned (g := fun a b => a * 2 ^ (b % w) % 2 ^ w + a / 2 ^ (w - b % w)) hv hx he fun _ _ =>
    rotateLeft_toNat _ (Nat.mod_lt _ hw)

/-- How `lv.sll` and `lv.srl` end under each value of `LV_WHOLE_SHIFT` (R451, R456). -/
theorem vecWholeShift_outcomes {v : BitVec 64} {n : Nat} (he : exec i s = vecWholeShift s rD v) (hn : v.toNat = n) :
    (s.cfg.lvWholeShift = .line → Completes i s [.reg rD] fun t => t.uval rD = n) ∧
    (s.cfg.lvWholeShift = .illegal → RaisesIllegal i s) ∧
    (s.cfg.lvWholeShift = .refuse → exec i s = .refused .wholeShiftUndefined) := by
  have hp : hasVector s.cfg = true := (hasVector_iff s.cfg).2 ⟨hv, hx⟩
  rw [vecWholeShift, whenPresent_true hp] at he
  refine ⟨fun hm => ?_, fun hm => ?_, fun hm => ?_⟩ <;> rw [hm] at he
  · exact vecResult_completes hv hx (he.trans (whenPresent_true hp _).symm) fun _ _ ht => ht.trans hn
  · exact raisesIllegal_of_exec he
  · exact he

end

/-! ### Packing (R442 to R447) -/

/-- The element of `2 h` bits that becomes lane `k` of a packed result: from `rB` in the lower half, from `rA` in the upper. -/
def packSource (h : Nat) (s : State) (rA rB : RegNum) (k : Nat) : BitVec (2 * h) :=
  if k < laneCount (2 * h) then lane (2 * h) k (s.reg64 rB) else lane (2 * h) (k - laneCount (2 * h)) (s.reg64 rA)

/-- That element as an unsigned number (`packSource_toNat`). -/
def packSourceU (h : Nat) (s : State) (rA rB : RegNum) (k : Nat) : Nat :=
  if k < 64 / (2 * h) then elemU (2 * h) k (s.uval rB) else elemU (2 * h) (k - 64 / (2 * h)) (s.uval rA)

/-- That element as a signed number (`packSource_toInt`). -/
def packSourceS (h : Nat) (s : State) (rA rB : RegNum) (k : Nat) : Int :=
  if k < 64 / (2 * h) then elemS (2 * h) k (s.uval rB) else elemS (2 * h) (k - 64 / (2 * h)) (s.uval rA)

theorem packSource_toNat (hx : s.cfg.xlen = .x64) (h k : Nat) (rA rB : RegNum) :
    (packSource h s rA rB k).toNat = packSourceU h s rA rB k := by
  rw [packSource, apply_ite BitVec.toNat, lane_reg64_toNat hx, lane_reg64_toNat hx, laneCount, packSourceU]

theorem packSource_toInt (hx : s.cfg.xlen = .x64) (hh : 0 < h) (k : Nat) (rA rB : RegNum) :
    (packSource h s rA rB k).toInt = packSourceS h s rA rB k := by
  have h2 : 0 < 2 * h := Nat.mul_pos two_pos hh
  rw [packSource, apply_ite BitVec.toInt, lane_reg64_toInt hx h2, lane_reg64_toInt hx h2, laneCount, packSourceS]

theorem packNarrow_eq (f : BitVec (2 * h) → BitVec h) (s : State) (rA rB : RegNum) :
    packNarrow h f (s.reg64 rA) (s.reg64 rB) = packLanes h (laneCount h) fun k => f (packSource h s rA rB k) := by
  simp only [packNarrow, packSource, apply_ite f]

section
variable (hv : s.cfg.hasVdx64 = true) (hx : s.cfg.xlen = .x64)
include hv hx

/-- A packing narrows the source element of each lane. -/
theorem packNarrow_completes {f : BitVec (2 * h) → BitVec h} {elem : Nat → Nat}
    (he : exec i s = vecResult s rD (packNarrow h f (s.reg64 rA) (s.reg64 rB)))
    (hf : ∀ k, (f (packSource h s rA rB k)).toNat = elem k) : VectorCompletes i s rD h elem :=
  packLanes_completes hv hx (he.trans (by rw [packNarrow_eq])) fun k _ => hf k

theorem vecPack_completes (he : exec i s = vecResult s rD (packNarrow h (fun x => x.setWidth h) (s.reg64 rA) (s.reg64 rB))) :
    VectorCompletes i s rD h fun k => packSourceU h s rA rB k % 2 ^ h :=
  packNarrow_completes hv hx he fun k => by rw [BitVec.toNat_setWidth, packSource_toNat hx]

theorem vecPackSigned_completes (hh : 0 < h)
    (he : exec i s = vecResult s rD (packNarrow h (fun x => satSigned h x.toInt) (s.reg64 rA) (s.reg64 rB))) :
    VectorCompletes i s rD h fun k => wrap h (min (2 ^ (h - 1) - 1) (max (-(2 ^ (h - 1))) (packSourceS h s rA rB k))) :=
  packNarrow_completes hv hx he fun k => by rw [satSigned_toNat, packSource_toInt hx hh]

theorem vecPackUnsigned_completes
    (he : exec i s = vecResult s rD (packNarrow h (fun x => satUnsigned h x.toNat) (s.reg64 rA) (s.reg64 rB))) :
    VectorCompletes i s rD h fun k => min (2 ^ h - 1) (packSourceU h s rA rB k) :=
  packNarrow_completes hv hx he fun k => by rw [satUnsigned_toNat, packSource_toNat hx]

/-! ### Unpacking, permuting and merging (R433, R434, R448, R467, R468) -/

/-- An unpacked element is the signed element of half the width. -/
theorem vecUnpack_completes (hh : 0 < h) (he : exec i s = vecResult s rD (unpackWiden h (s.reg64 rA))) :
    VectorCompletes i s rD (2 * h) fun k => wrap (2 * h) (elemS h k (s.uval rA)) :=
  packLanes_completes hv hx he fun k _ => by
    rw [← wrap_toInt, BitVec.toInt_signExtend_of_le (Nat.le_mul_of_pos_left h two_pos), lane_reg64_toInt hx hh]

theorem vecPermute_completes (he : exec i s = vecResult s rD (permNibbles (s.reg64 rA) (s.reg64 rB))) :
    VectorCompletes i s rD 4 fun k => elemU 4 (elemU 4 k (s.uval rB)) (s.uval rA) :=
  packLanes_completes hv hx he fun k _ => by rw [lane_reg64_toNat hx, lane_reg64_toNat hx]

/-- Even lanes come from `rB` and odd ones from `rA`: the same lane on the line, the lane of half the index interleaved. -/
theorem vecMerge_completes (he : exec i s = vecResult s rD (mergeLanes w s.cfg.lvMerge (s.reg64 rA) (s.reg64 rB))) :
    VectorCompletes i s rD w fun k =>
      elemU w (if s.cfg.lvMerge = .line then k else k / 2) (if k % 2 = 0 then s.uval rB else s.uval rA) := by
  refine packLanes_completes hv hx he fun k _ => ?_
  cases s.cfg.lvMerge with
  | line => simp only [apply_ite BitVec.toNat, lane_reg64_toNat hx, apply_ite (elemU w k), if_true]
  | interleave =>
    simp only [apply_ite BitVec.toNat, lane_reg64_toNat hx, apply_ite (elemU w (k / 2)), reduceCtorEq, if_false]

end

end Sys2Proof.Machine

/-- Settles O59: each packed shift by what it gives on two lanes, at both widths; the whole-register shifts by their policy
(`vecWholeShift_outcomes`). -/
theorem vectorShift : Obligations.VectorShift := by
  unfold Obligations.VectorShift
  intro s rD rA rB hv hx
  simp only [List.forall_mem_cons, List.not_mem_nil, false_implies, implies_true, and_true]
  have h8 : 0 < 8 := by decide
  have h16 : 0 < 16 := by decide
  refine ⟨⟨⟨vecShiftLeft_completes hv hx rfl, vecShiftRight_completes hv hx rfl, vecShiftArith_completes hv hx h8 rfl,
        vecRotate_completes hv hx h8 rfl⟩,
      ⟨vecShiftLeft_completes hv hx rfl, vecShiftRight_completes hv hx rfl, vecShiftArith_completes hv hx h16 rfl,
        vecRotate_completes hv hx h16 rfl⟩⟩,
    vecWholeShift_outcomes hv hx rfl ?_, vecWholeShift_outcomes hv hx rfl ?_⟩
  · rw [shiftLeft_toNat, reg64_toNat hx, reg64_toNat hx]
  · rw [ushiftRight_toNat, reg64_toNat hx, reg64_toNat hx]

/-- Settles O60: the packings by their source element (`packSource`) and how it is narrowed; the others by the lane each result
lane is taken from. -/
theorem vectorPackMergePermute : Obligations.VectorPackMergePermute := by
  unfold Obligations.VectorPackMergePermute
  intro s rD rA rB hv hx
  simp only [List.forall_mem_cons, List.not_mem_nil, false_implies, implies_true, and_true]
  have h4 : 0 < 4 := by decide
  have h8 : 0 < 8 := by decide
  exact ⟨⟨⟨vecPack_completes hv hx rfl, vecPackSigned_completes hv hx h4 rfl, vecPackUnsigned_completes hv hx rfl⟩,
      ⟨vecPack_completes hv hx rfl, vecPackSigned_completes hv hx h8 rfl, vecPackUnsigned_completes hv hx rfl⟩⟩,
    vecUnpack_completes hv hx h4 rfl, vecUnpack_completes hv hx h8 rfl, vecPermute_completes hv hx rfl,
    vecMerge_completes hv hx rfl, vecMerge_completes hv hx rfl⟩

end

section
/-! PROOFS. The boundary before the fetch (O8) and the reset input (O12): which interrupt is pending, what the boundary makes of it,
and what the step does then (R512, R515). -/

open Sys2Proof Sys2Proof.Machine

namespace Sys2Proof.Machine

variable {s : State} {i : Input} {e : Exc}

/-! ### The pending interrupt -/

theorem pendingInterrupt_external (hp : i.ext = true) (he : s.srBit srIEE = true) :
    pendingInterrupt i s = some .externalInterrupt := by
  rw [pendingInterrupt, if_pos (by rw [hp, he, Bool.and_self])]

/-- The tick waits for the external interrupt (R515). -/
theorem pendingInterrupt_tick (hext : i.ext = false ∨ s.srBit srIEE = false) (hp : i.tick = true) (he : s.srBit srTEE = true) :
    pendingInterrupt i s = some .tickTimer := by
  rw [pendingInterrupt, Bool.and_eq_false_iff.2 hext, if_neg Bool.false_ne_true, if_pos (by rw [hp, he, Bool.and_self])]

theorem pendingInterrupt_none (hext : i.ext = false ∨ s.srBit srIEE = false) (htick : i.tick = false ∨ s.srBit srTEE = false) :
    pendingInterrupt i s = none := by
  rw [pendingInterrupt, Bool.and_eq_false_iff.2 hext, if_neg Bool.false_ne_true, Bool.and_eq_false_iff.2 htick,
    if_neg Bool.false_ne_true]

/-! ### The boundary -/

theorem boundary_of_reset (hr : i.reset = true) : boundary i s = .reset := if_pos hr

theorem boundary_of_pending (hr : i.reset = false) (hp : pendingInterrupt i s = some e) : boundary i s = .interrupt e := by
  rw [boundary, hr, if_neg Bool.false_ne_true, hp]

theorem boundary_of_not_pending (hr : i.reset = false) (hp : pendingInterrupt i s = none) : boundary i s = .nothing := by
  rw [boundary, hr, if_neg Bool.false_ne_true, hp]

/-- Nothing happens at a boundary where the outside does nothing (D23). -/
theorem boundary_none : boundary Input.none s = .nothing :=
  boundary_of_not_pending rfl (pendingInterrupt_none (.inl rfl) (.inl rfl))

theorem nextInput_of_quiet (h : Quiet s) : nextInput s = Input.none := by
  cases hin : s.inputs with
  | nil => simp only [nextInput, hin]
  | cons i rest => rw [nextInput_cons hin, h i (by rw [hin]; exact List.mem_cons_self)]

/-! ### The step -/

theorem step_of_reset (hb : boundary (nextInput s) (takeInput s) = .reset) : step s = .next (warmReset (takeInput s)) := by
  simp only [step, hb]

theorem step_of_interrupt (hb : boundary (nextInput s) (takeInput s) = .interrupt e) : step s = raise (takeInput s) e := by
  simp only [step, hb]

end Sys2Proof.Machine

/-- Settles O8: in each case the interrupt that is pending, then the boundary, then the step; an interrupt is raised before the
fetch (`raisedIn_raise`). -/
theorem interruptsAtBoundary : Obligations.InterruptsAtBoundary := by
  unfold Obligations.InterruptsAtBoundary
  refine ⟨fun s i rest hin hr => ?_, fun s hq => step_of_nothing (nextInput_of_quiet hq ▸ boundary_none)⟩
  have hi : nextInput s = i := nextInput_cons hin
  refine ⟨fun hp he => ?_, fun hp he hext => ?_, fun hext htick => ?_⟩
  · rw [step_of_interrupt (hi ▸ boundary_of_pending hr (pendingInterrupt_external hp he))]
    exact raisedIn_raise (takeInput s) .externalInterrupt
  · rw [step_of_interrupt (hi ▸ boundary_of_pending hr (pendingInterrupt_tick hext hp he))]
    exact raisedIn_raise (takeInput s) .tickTimer
  · exact step_of_nothing (hi ▸ boundary_of_not_pending hr (pendingInterrupt_none hext htick))

/-- Settles O12: the step is `warmReset` of the state with the input taken in, whose fields are those of `resetWith` or kept. -/
theorem resetInputReassigns : Obligations.ResetInputReassigns := by
  unfold Obligations.ResetInputReassigns
  intro s i rest hin hr
  have hb : boundary (nextInput s) (takeInput s) = .reset := nextInput_cons hin ▸ boundary_of_reset hr
  have hinputs : (warmReset (takeInput s)).inputs = rest := by
    rw [warmReset_inputs, takeInput_inputs, hin, List.tail_cons]
  exact ⟨_, step_of_reset hb, warmReset_cfg _, hinputs, warmReset_mem _, warmReset_sr _, warmReset_evbar _, warmReset_pc _,
    rfl, rfl, rfl, rfl, rfl⟩

end
